-- ==== Sys2Proof/Word.lean ====
section
/-! DEFINITION. The unit that crosses a port (R186): the byte. -/
namespace Sys2Proof

/-- One byte of a frame or of a reply (R186). -/
abbrev Byte := BitVec 8

end Sys2Proof
end

