-- ==== Sys2Proof/Syntax.lean ====
section
/-! DEFINITION. The commands the part takes (one constructor of `Instr` per row of the opcode table) and
the data they carry: plot points and patches, weekday and cause sets, policies, strip reports, lane names. -/
namespace Sys2Proof

/-! ### Points and patches (section 0.6) -/

/-- The densitometer's channels, in the manual's order. -/
inductive Channel where
  | r | g | b
  deriving DecidableEq, Repr

/-- The four control quantities of a channel, in the manual's order. -/
inductive Quantity where
  | fog | speed | contrast | dmax
  deriving DecidableEq, Repr

/-- A plot point: one control quantity in one channel. -/
structure Point where
  channel : Channel
  quantity : Quantity
  deriving DecidableEq, Repr

/-- One value per channel. -/
structure Channels (α : Type) where
  r : α
  g : α
  b : α
  deriving DecidableEq, Repr

/-- One value per control quantity of a channel. -/
structure Quantities (α : Type) where
  fog : α
  speed : α
  contrast : α
  dmax : α
  deriving DecidableEq, Repr

/-- One value per patch of a channel: base patch, low step, high step, maximum patch. -/
structure Strip (α : Type) where
  base : α
  low : α
  high : α
  max : α
  deriving DecidableEq, Repr

/-- One value per plot point: a twelve-valued field in plot-point order. -/
abbrev Points (α : Type) := Channels (Quantities α)

/-- One value per patch: a twelve-valued field in patch order. -/
abbrev Patches (α : Type) := Channels (Strip α)

def Channels.get {α : Type} (x : Channels α) : Channel → α
  | .r => x.r
  | .g => x.g
  | .b => x.b

def Quantities.get {α : Type} (x : Quantities α) : Quantity → α
  | .fog => x.fog
  | .speed => x.speed
  | .contrast => x.contrast
  | .dmax => x.dmax

def Channels.map {α β : Type} (f : α → β) (x : Channels α) : Channels β := ⟨f x.r, f x.g, f x.b⟩

def Strip.map {α β : Type} (f : α → β) (x : Strip α) : Strip β :=
  ⟨f x.base, f x.low, f x.high, f x.max⟩

/-- The value at one plot point. -/
def Points.pick {α : Type} (x : Points α) (p : Point) : α := (x.get p.channel).get p.quantity

/-- The twelve values given by a rule for each point. -/
def Points.ofFn {α : Type} (f : Point → α) : Points α :=
  let row (c : Channel) : Quantities α := ⟨f ⟨c, .fog⟩, f ⟨c, .speed⟩, f ⟨c, .contrast⟩, f ⟨c, .dmax⟩⟩
  ⟨row .r, row .g, row .b⟩

/-- The same value at every plot point. -/
def Points.all {α : Type} (a : α) : Points α := Points.ofFn fun _ => a

/-- Each of the twelve patch values replaced by its image. -/
def Patches.map {α β : Type} (f : α → β) (x : Patches α) : Patches β := Channels.map (Strip.map f) x

/-- The twelve plot points in the manual's order, R-FOG first and B-DMAX last. -/
def Point.order : List Point :=
  [.r, .g, .b].flatMap fun c => [⟨c, .fog⟩, ⟨c, .speed⟩, ⟨c, .contrast⟩, ⟨c, .dmax⟩]

/-- The twelve values in plot-point order. -/
def Points.toList {α : Type} (x : Points α) : List α := Point.order.map x.pick

/-- The twelve values in patch order. -/
def Patches.toList {α : Type} (x : Patches α) : List α :=
  [x.r, x.g, x.b].flatMap fun s => [s.base, s.low, s.high, s.max]

/-! ### Sets and identities -/

/-- The two serial ports (R171). -/
inductive Port where
  | strip | supervision
  deriving DecidableEq, Repr

/-- The level of an input line. -/
inductive Level where
  | inactive | active
  deriving DecidableEq, Repr

/-- A process type, 0 to 7 (Table 0-3). -/
abbrev ProcessType := Fin 8

/-- A process slot, 0 to 3 (Table 0-3). -/
abbrev SlotNumber := Fin 4

/-- The reasons a lane is brought to notice (chapter 9). -/
inductive Cause where
  | watch | drift | action | cleared | overdue | crossover | lotRefused
  deriving DecidableEq, Repr

/-- A set of causes: a cause set or a notice mask. -/
structure Causes where
  watch : Bool
  drift : Bool
  action : Bool
  cleared : Bool
  overdue : Bool
  crossover : Bool
  lotRefused : Bool
  deriving DecidableEq, Repr

def Causes.empty : Causes := ⟨false, false, false, false, false, false, false⟩

/-- Whether the set holds a cause. -/
def Causes.has (m : Causes) : Cause → Bool
  | .watch => m.watch
  | .drift => m.drift
  | .action => m.action
  | .cleared => m.cleared
  | .overdue => m.overdue
  | .crossover => m.crossover
  | .lotRefused => m.lotRefused

/-- The set with a cause added. -/
def Causes.add (m : Causes) : Cause → Causes
  | .watch => { m with watch := true }
  | .drift => { m with drift := true }
  | .action => { m with action := true }
  | .cleared => { m with cleared := true }
  | .overdue => { m with overdue := true }
  | .crossover => { m with crossover := true }
  | .lotRefused => { m with lotRefused := true }

/-- A set of weekdays: a rest mask. -/
structure Weekdays where
  monday : Bool
  tuesday : Bool
  wednesday : Bool
  thursday : Bool
  friday : Bool
  saturday : Bool
  sunday : Bool
  deriving DecidableEq, Repr

/-- Whether the set holds the weekday of a number, 0 Monday to 6 Sunday (section 0.6). -/
def Weekdays.has (m : Weekdays) : Nat → Bool
  | 0 => m.monday
  | 1 => m.tuesday
  | 2 => m.wednesday
  | 3 => m.thursday
  | 4 => m.friday
  | 5 => m.saturday
  | 6 => m.sunday
  | _ => false

/-! ### What the requests carry -/

/-- The four limits of a plot point (R29): aL, wL, wH, aH. -/
structure Limits where
  actionLow : Int
  warnLow : Int
  warnHigh : Int
  actionHigh : Int
  deriving DecidableEq, Repr

/-- A policy body, as SET POLICY carries it and, clamped, as a policy record holds it (Table 2-1). -/
structure Policy where
  used : Points Bool
  limits : Points Limits
  driftThreshold : Points Nat
  filterShift : Nat
  deadband : Nat
  runLength : Nat
  settleCount : Nat
  clearCount : Nat
  overdueLimit : Nat
  noticeMask : Causes
  deriving DecidableEq, Repr

/-- A strip report as a SUBMIT or PROVE frame carries it (Table 4-1); an absent density is `none`. -/
structure StripReport where
  store : Nat
  slot : Nat
  lot : Nat
  day : Nat
  densities : Patches (Option Nat)
  deriving DecidableEq, Repr

/-- The two forms in which a request names a lane (R11). -/
inductive LaneName where
  | bySlot (store slot : Nat)
  | byNumber (lane : Nat)
  deriving DecidableEq, Repr

/-- What CREATE LANE carries (section 1.5). -/
structure LaneCreation where
  store : Nat
  slot : Nat
  type : Nat
  restMask : Weekdays
  offsets : Option (Points Int)
  autoCross : Option Bool
  autoClear : Option Bool
  deriving DecidableEq, Repr

/-- The four optional parts of EDIT LANE (section 1.6). -/
structure LaneEdit where
  offsets : Option (Points Int)
  restMask : Option Weekdays
  autoCross : Option Bool
  autoClear : Option Bool
  deriving DecidableEq, Repr

/-- A request as a framer hands it to its owning block (R174): the operands its frame carried. -/
inductive Request where
  | submit (report : StripReport)
  | collect
  | createLane (creation : LaneCreation)
  | editLane (name : LaneName) (edit : LaneEdit)
  | retireLane (name : LaneName)
  | lookupLane (name : LaneName)
  | lockLane (name : LaneName)
  | unlockLane (name : LaneName)
  | holdLane (name : LaneName)
  | releaseLane (name : LaneName)
  | requalifyLane (name : LaneName)
  | retireSite (store : Nat)
  | nextLane (start : Option Nat)
  | setPolicy (type : Nat) (body : Policy)
  | setPolicyUndefine (type : Nat)
  | readPolicy (type : Nat)
  | announceLot (lot type : Nat) (references : Patches Nat)
  | readLot (lot : Nat)
  | readLotFollowing (start : Nat)
  | deleteLot (lot : Nat)
  | prove (report : StripReport)
  | setClock (day minute weekdayBase : Nat)
  | startClock
  | stopClock
  | readClock
  | setDeadline (minute : Nat)
  | startPeriodClose
  | startRollout (lot : Nat)
  | startOverdue
  | cancelSweep
  | sweepStatus
  | takeNotice
  | setAttentionMode (mode : Nat)
  | status
  | identify
  deriving DecidableEq, Repr

/-- How a READ frame that now completes began (R172, R184): while its framer was in REPLY HELD; while it
was IDLE or ANSWERING; or so that RESET was asserted at its beginning or while it was being clocked. -/
inductive ReadStart where
  | replyHeld | noReply | underReset
  deriving DecidableEq, Repr

/-- The commands: one constructor per row of the opcode table. A request command is the event in which the
owning block takes that request (R175). `line` is the level of SUPERVISOR ENABLE in the event, on the
requests whose rule samples it (R18, R36, R37, R180; log entry 6). -/
inductive Instr where
  /-- REQUEST_FRAME_BEGIN, R173. -/
  | requestFrameBegin (port : Port)
  /-- REQUEST_FRAME_END, R174: the bytes received since chip select was asserted. -/
  | requestFrameEnd (port : Port) (bytes : List Byte)
  /-- READ_FRAME, R172: `clocked` bytes were shifted out after the kind byte. -/
  | readFrame (port : Port) (began : ReadStart) (clocked : Nat)
  /-- SUBMIT, R176. -/
  | submit (report : StripReport)
  /-- COLLECT, R179. -/
  | collect
  /-- EVALUATION, R67. -/
  | evaluation
  /-- CREATE_LANE, R12. -/
  | createLane (creation : LaneCreation)
  /-- EDIT_LANE, R15. -/
  | editLane (name : LaneName) (edit : LaneEdit) (line : Level)
  /-- LOCK_LANE, R17. -/
  | lockLane (name : LaneName) (line : Level)
  /-- UNLOCK_LANE, R17. -/
  | unlockLane (name : LaneName) (line : Level)
  /-- RETIRE_LANE, R19. -/
  | retireLane (name : LaneName) (line : Level)
  /-- RETIRE_SITE, R21. -/
  | retireSite (store : Nat) (line : Level)
  /-- LOOKUP_LANE, R22. -/
  | lookupLane (name : LaneName)
  /-- NEXT_LANE, R23. -/
  | nextLane (start : Option Nat)
  /-- HOLD_LANE, R121. -/
  | holdLane (name : LaneName)
  /-- RELEASE_LANE, R123. -/
  | releaseLane (name : LaneName)
  /-- REQUALIFY_LANE, R124. -/
  | requalifyLane (name : LaneName)
  /-- SET_POLICY, the defining form, R36. -/
  | setPolicy (type : Nat) (body : Policy) (line : Level)
  /-- SET_POLICY_UNDEFINE, the undefining form, R37. -/
  | setPolicyUndefine (type : Nat) (line : Level)
  /-- READ_POLICY, R38. -/
  | readPolicy (type : Nat)
  /-- ANNOUNCE_LOT, R50. -/
  | announceLot (lot type : Nat) (references : Patches Nat)
  /-- READ_LOT, the form by number, R51. -/
  | readLot (lot : Nat)
  /-- READ_LOT_FOLLOWING, R51. -/
  | readLotFollowing (start : Nat)
  /-- DELETE_LOT, R52. -/
  | deleteLot (lot : Nat)
  /-- PROVE, R83. -/
  | prove (report : StripReport)
  /-- SET_CLOCK, R134. -/
  | setClock (day minute weekdayBase : Nat)
  /-- START_CLOCK, R135. -/
  | startClock
  /-- STOP_CLOCK, R135. -/
  | stopClock
  /-- READ_CLOCK, R137. -/
  | readClock
  /-- SET_DEADLINE, R136. -/
  | setDeadline (minute : Nat)
  /-- MINUTE_TICK, R130. -/
  | minuteTick
  /-- DAY_ROLLOVER, R130: the tick at minute 1439. -/
  | dayRollover
  /-- CLOCK_LAST_MOMENT_STOP, R131: the tick at the last moment. -/
  | clockLastMomentStop
  /-- DEADLINE_TICK, R132: the tick that makes the minute the deadline. -/
  | deadlineTick
  /-- START_PERIOD_CLOSE, R148. -/
  | startPeriodClose
  /-- START_ROLLOUT, R151. -/
  | startRollout (lot : Nat)
  /-- START_OVERDUE, R154. -/
  | startOverdue
  /-- CANCEL_SWEEP, R155. -/
  | cancelSweep
  /-- SWEEP_STATUS, R156. -/
  | sweepStatus
  /-- PERIOD_CLOSE_STEP, R149. -/
  | periodCloseStep
  /-- ROLLOUT_STEP, R152. -/
  | rolloutStep
  /-- OVERDUE_STEP, R140. -/
  | overdueStep
  /-- TAKE_NOTICE, R163. -/
  | takeNotice
  /-- SET_ATTENTION_MODE, R169. -/
  | setAttentionMode (mode : Nat)
  /-- ATTN_PULSE_START, R168. -/
  | attnPulseStart
  /-- ATTN_PULSE_END, R168. -/
  | attnPulseEnd
  /-- STATUS, R180. -/
  | status (line : Level)
  /-- IDENTIFY, R181. -/
  | identify
  /-- POWER_ON, R182. -/
  | powerOn
  /-- CLEARING_END, R183. -/
  | clearingEnd
  /-- WARM_RESET, R184: RESET is asserted. -/
  | warmReset
  /-- RESET_RELEASE, R184: RESET is released. -/
  | resetRelease
  deriving DecidableEq, Repr

end Sys2Proof
end

