-- ==== Sys2Proof/Decode.lean ====
section
/-! DEFINITION. The command that a word of the opcode table's bits spells. -/
namespace Sys2Proof

/-- No row of the opcode table gives bits, so no word spells a command (log entry 19). A request's bytes
reach the part in frames; Machine/RequestFrames.lean reads those (R187). -/
def decodeTableWord (_nbits _w : Nat) : Option Instr := none

end Sys2Proof
end

