-- ==== Sys2Proof/Config.lean ====
section
/-! DEFINITION. What the part fixes: the capacities of Table 0-1, the codes of IDENTIFY (R181) and the
bounds the rules name. The spec leaves no value of any result open, so there is no free value here. -/
namespace Sys2Proof.Config

/-- Pool places, numbered 0 to 1535 (Table 0-1, R6). -/
def poolPlaces : Nat := 1536

/-- Site entries the directory holds at most (Table 0-1, R7). -/
def siteCapacity : Nat := 512

/-- Lot entries the Lot Table holds at most (Table 0-1, R41). -/
def lotCapacity : Nat := 32

/-- Process types, each with one policy (Table 0-1, R26). -/
def processTypes : Nat := 8

/-- Reports the Intake Queue holds at most (Table 0-1, R177). -/
def intakeCapacity : Nat := 24

/-- Verdicts the Verdict Queue holds at most (Table 0-1, R179). -/
def verdictCapacity : Nat := 24

/-- The vendor code of IDENTIFY (R181). -/
def vendorCode : Nat := 3902

/-- The part code of IDENTIFY (R181). -/
def partCode : Nat := 412

/-- The revision of IDENTIFY (R181). -/
def revision : Nat := 2

/-- The last business day (Table 7-1, R131). -/
def lastDay : Nat := 65535

/-- The last minute of a day (Table 7-1, R130). -/
def lastMinute : Nat := 1439

/-- The deadline minute after power-on (Table 7-1, R143). -/
def powerOnDeadline : Nat := 720

/-- The largest density the part keeps, in mD (R65, R50). -/
def densityTop : Nat := 4000

/-- The byte a READ frame shifts out where there is no reply byte (R188). -/
def noReplyByte : Byte := 0xFF

end Sys2Proof.Config
end

