-- ==== Sys2Proof/Machine/Table.lean ====
section
/-! DEFINITION. Records reached by number: the lane pool (R1, R6) and the Lot Table (R41) are lists of
(number, record) with the numbers strictly rising, so that equal tables are equal data. -/
namespace Sys2Proof.Machine

/-- A table: the records present, in rising number. -/
abbrev Table (α : Type) := List (Nat × α)

/-- The canonical form: the numbers strictly rise. -/
abbrev Table.wf {α : Type} (t : Table α) : Prop := t.Pairwise fun a b => a.1 < b.1

/-- The record with a number, if there is one. -/
def Table.find {α : Type} (n : Nat) : Table α → Option α
  | [] => none
  | (j, a) :: t => if j = n then some a else Table.find n t

/-- The table with the record of one number put in, replacing any it had. -/
def Table.put {α : Type} (n : Nat) (x : α) : Table α → Table α
  | [] => [(n, x)]
  | (j, a) :: t =>
    if n < j then (n, x) :: (j, a) :: t
    else if n = j then (n, x) :: t
    else (j, a) :: Table.put n x t

/-- The table without the record of one number. -/
def Table.drop {α : Type} (n : Nat) : Table α → Table α
  | [] => []
  | (j, a) :: t => if j = n then t else (j, a) :: Table.drop n t

/-- The record of one number changed, if it is there. -/
def Table.modify {α : Type} (n : Nat) (f : α → α) (t : Table α) : Table α :=
  t.map fun e => if e.1 = n then (e.1, f e.2) else e

/-- The record of the lowest number above `n` (R23, R51). -/
def Table.above {α : Type} (n : Nat) (t : Table α) : Option (Nat × α) := t.find? fun e => n < e.1

/-- The lowest number, `n` or above, that no record has (R6). -/
def Table.vacant {α : Type} (n : Nat) : Table α → Nat
  | [] => n
  | (j, _) :: t => if j = n then Table.vacant (n + 1) t else n

end Sys2Proof.Machine
end

