-- ==== Sys2Proof/Machine/State.lean ====
section
/-! DEFINITION. The machine's state, block by block as the manual lists its ten blocks (section 0.2), the
replies the framers hold, the faults and the refusal, and the state after power-on clearing. -/
namespace Sys2Proof.Machine

/-! ### Lane records (chapter 1) -/

/-- The six lane states (R109). -/
inductive LaneState where
  | settling | steady | watch | drift | action | held
  deriving DecidableEq, Repr

/-- The trend of a plot point, in tu, with its seeded mark (R90). -/
structure Trend where
  value : Int
  seeded : Bool
  deriving DecidableEq, Repr

/-- The eight running counters of a lane, or their copies in the period summary (R4). -/
structure Counters where
  readings : Nat
  warns : Nat
  driftEntries : Nat
  actionEntries : Nat
  reruns : Nat
  refusals : Nat
  overdueRaises : Nat
  crossovers : Nat
  deriving DecidableEq, Repr

/-- The clock's day and minute when a lane joined the Attention List (R160). -/
structure JoinStamp where
  day : Nat
  minute : Nat
  deriving DecidableEq, Repr

/-- A lane record (Table 1-1). Its lane number is the pool place it stands at (R2). -/
structure Lane where
  store : Nat
  slot : SlotNumber
  type : ProcessType
  state : LaneState
  settleProgress : Nat
  cleanProgress : Nat
  activeLot : Nat
  pendingLot : Option Nat
  offsets : Points Int
  trend : Points Trend
  runCount : Points Int
  lastDeviation : Points (Option Int)
  createdDay : Nat
  lastDay : Option Nat
  rerunsToday : Nat
  restMask : Weekdays
  locked : Bool
  autoCross : Bool
  autoClear : Bool
  overdue : Bool
  causes : Causes
  /-- The attention position: present while the lane is on the list; its place in the order is that of its
  number in `AttentionList.order` (R160; log entry 14). -/
  joined : Option JoinStamp
  counters : Counters
  summary : Counters
  periodTag : Nat
  deriving DecidableEq, Repr

/-- One value per process slot. -/
structure Slots (α : Type) where
  s0 : α
  s1 : α
  s2 : α
  s3 : α
  deriving DecidableEq, Repr

/-- A site entry: a store number and four process slots, each empty or naming a lane (R7). -/
structure Site where
  store : Nat
  slots : Slots (Option Nat)
  deriving DecidableEq, Repr

/-- The Lane Store: the pool, the directory and their two counts (R6, R7). -/
structure LaneStore where
  /-- The occupied places; a place not listed is VACANT (R1). -/
  pool : Table Lane
  occupiedLanes : Nat
  directory : List Site
  siteCount : Nat
  deriving DecidableEq, Repr

/-! ### Policies and lots (chapters 2 and 3) -/

/-- A policy record, undefined or complete (R26), and the type's lane count (R27). -/
structure PolicyRecord where
  policy : Option Policy
  laneCount : Nat
  deriving DecidableEq, Repr

/-- One value per process type. -/
structure PerType (α : Type) where
  t0 : α
  t1 : α
  t2 : α
  t3 : α
  t4 : α
  t5 : α
  t6 : α
  t7 : α
  deriving DecidableEq, Repr

/-- The four lot states (Table 3-3). -/
inductive LotState where
  | announced | rolling | current | superseded
  deriving DecidableEq, Repr

/-- A lot entry (Table 3-1); its lot number is its number in the table. -/
structure Lot where
  type : ProcessType
  state : LotState
  references : Patches Nat
  users : Nat
  announcedDay : Nat
  deriving DecidableEq, Repr

/-- The Lot Table and its count (R41). -/
structure LotTable where
  entries : Table Lot
  count : Nat
  deriving DecidableEq, Repr

/-! ### Reports and verdicts (chapter 4) -/

/-- A strip report once the port has taken it in: densities clipped, clipped flags set (R65). -/
structure Report where
  store : Nat
  slot : Nat
  lot : Nat
  day : Nat
  densities : Patches (Option Nat)
  clipped : Patches Bool
  deriving DecidableEq, Repr

/-- A report waiting in the Intake Queue, with its ticket (R176). -/
structure QueuedReport where
  ticket : Nat
  report : Report
  deriving DecidableEq, Repr

/-- The reasons of a refused verdict (Table 4-2). -/
inductive Reason where
  | noLane | held | stale | ahead | rerunLimit | lotMismatch | lotUnknown | noData
  deriving DecidableEq, Repr

/-- The five zones (Table 5-1). -/
inductive Zone where
  | actionLow | warnLow | centre | warnHigh | actionHigh
  deriving DecidableEq, Repr

/-- The reading outcomes (Table 5-5). -/
inductive ReadingOutcome where
  | limit | trend | warn | clean
  deriving DecidableEq, Repr

/-- The crossover indication of an accepted report (Table 3-4). -/
inductive Crossover where
  | none | pending | auto
  deriving DecidableEq, Repr

/-- The five cases of lot resolution (Table 3-4). -/
inductive LotCase where
  | active | pending | auto | mismatch | unknown
  deriving DecidableEq, Repr

/-- What stages three to six give for one evaluated point (R81, R104). -/
structure PointResult where
  deviation : Int
  gross : Bool
  clipped : Bool
  zone : Zone
  trend : Int
  runCount : Int
  deriving DecidableEq, Repr

/-- The part of a verdict that its kind decides (R75, R81). -/
inductive VerdictBody where
  | refused (reason : Reason)
  | evaluated (outcome : ReadingOutcome) (stateAfter : LaneState) (crossover : Crossover)
      (entries : List (Point × PointResult))
  deriving DecidableEq, Repr

/-- A verdict record (R75, R81). A trial verdict has no ticket (R84). -/
structure Verdict where
  ticket : Option Nat
  store : Nat
  slot : Nat
  lane : Option Nat
  clipped : Patches Bool
  body : VerdictBody
  deriving DecidableEq, Repr

/-! ### Clock, sweeps, Attention List (chapters 7 to 9) -/

/-- The Day Clock (Table 7-1). -/
structure DayClock where
  day : Nat
  minute : Nat
  weekdayBase : Nat
  running : Bool
  deadline : Nat
  deriving DecidableEq, Repr

/-- The kinds of sweep, a rollout with its rolling lot (Table 8-1). -/
inductive SweepKind where
  | periodClose
  | rollout (lot : Nat)
  | overdue
  deriving DecidableEq, Repr

/-- Who started a sweep (R144). -/
inductive Origin where
  | request | deadline
  deriving DecidableEq, Repr

/-- How a sweep ended (R144). -/
inductive Ending where
  | completed | cancelled | broken | abandoned
  deriving DecidableEq, Repr

/-- What the engine holds while RUNNING (Table 8-1). -/
structure Sweep where
  kind : SweepKind
  origin : Origin
  cursor : Nat
  steps : Nat
  deriving DecidableEq, Repr

/-- The engine state (R144). -/
inductive Engine where
  | idle
  | running (sweep : Sweep)
  deriving DecidableEq, Repr

/-- The last-sweep record of an ended sweep (R144, R146). -/
structure LastSweep where
  kind : SweepKind
  origin : Origin
  ending : Ending
  cursor : Nat
  steps : Nat
  deriving DecidableEq, Repr

/-- The Sweep Engine (Table 8-1). -/
structure SweepEngine where
  engine : Engine
  pendingOverdue : Bool
  periodNumber : Nat
  sweepDone : Bool
  lastSweep : Option LastSweep
  deriving DecidableEq, Repr

/-- The modes of the ATTN line (section 9.5). -/
inductive AttnMode where
  | level | pulse
  deriving DecidableEq, Repr

/-- The Attention List, head first, and the ATTN line's mode and pulses (R160, R168, R169). -/
structure AttentionList where
  order : List Nat
  length : Nat
  mode : AttnMode
  pulsesOwed : Nat
  pulseInProgress : Bool
  deriving DecidableEq, Repr

/-- The notice record (R164). -/
structure Notice where
  lane : Nat
  store : Nat
  slot : SlotNumber
  causes : Causes
  state : LaneState
  locked : Bool
  autoCross : Bool
  autoClear : Bool
  overdue : Bool
  stamp : JoinStamp
  deriving DecidableEq, Repr

/-! ### Replies (R175, R188) -/

/-- The reply codes other than DONE and ACCEPTED, which carry a body (Table 11-4). -/
inductive ReplyCode where
  | none | listEmpty | queueFull | malformed | notReady | noLane | laneExists | poolFull
  | directoryFull | noPolicy | noCurrentLot | locked | supervisorRequired | inUse | lotExists
  | lotTableFull | noLot | lotInUse | wrongState | clockRunning | sweepBusy
  deriving DecidableEq, Repr

/-- What RETIRE SITE reports of a slot (R21). -/
inductive SlotOutcome where
  | empty | skippedLocked | retired
  deriving DecidableEq, Repr

/-- The reset causes (R185). -/
inductive ResetCause where
  | powerOn | resetLine
  deriving DecidableEq, Repr

/-- The values STATUS returns (R180). -/
structure StatusRecord where
  line : Level
  clock : DayClock
  engine : Engine
  sweepDone : Bool
  pendingOverdue : Bool
  intakeDepth : Nat
  verdictDepth : Nat
  listLength : Nat
  occupiedLanes : Nat
  sites : Nat
  lots : Nat
  resetCause : ResetCause
  brokeIntoSweep : Bool
  deriving DecidableEq, Repr

/-- The body of a DONE reply, by the request it answers. -/
inductive DoneBody where
  /-- CREATE LANE, EDIT LANE, LOOKUP LANE, NEXT LANE (R14, R15, R22, R23). -/
  | laneRecord (number : Nat) (lane : Lane)
  /-- LOCK LANE, UNLOCK LANE: identity and marks (R17). -/
  | laneMarks (number : Nat) (lane : Lane)
  /-- HOLD, RELEASE, REQUALIFY LANE: the lane after, and the state before (R121, R123, R124). -/
  | laneMoved (number : Nat) (lane : Lane) (before : LaneState)
  /-- RETIRE LANE (R19). -/
  | laneRetired (number store : Nat) (slot : SlotNumber) (siteRemoved : Bool)
  /-- RETIRE SITE (R21). -/
  | siteRetired (store : Nat) (outcomes : Slots SlotOutcome)
  /-- SET POLICY, defining form (R36). -/
  | policyStored (type : ProcessType) (policy : Policy) (laneCount : Nat) (adjusted : Bool)
  /-- SET POLICY, undefining form (R37). -/
  | policyUndefined (type : ProcessType)
  /-- READ POLICY (R38). -/
  | policyRead (type : ProcessType) (policy : Policy) (laneCount : Nat)
  /-- ANNOUNCE LOT (R50). -/
  | lotAnnounced (number : Nat) (lot : Lot) (clipped : Bool)
  /-- READ LOT in either form (R51). -/
  | lotRead (number : Nat) (lot : Lot)
  /-- DELETE LOT (R52). -/
  | lotDeleted (number : Nat) (type : ProcessType)
  /-- COLLECT (R179). -/
  | collected (verdict : Verdict) (remaining : Nat)
  /-- PROVE (R84): the lot case when reached; state, settle and clean progress of a trial that passed. -/
  | proved (lotCase : Option LotCase) (trial : Option (LaneState × Nat × Nat)) (verdict : Verdict)
  /-- The clock requests (R134 to R137; log entry 22). -/
  | clock (clock : DayClock)
  /-- START PERIOD CLOSE (R148). -/
  | periodStarted (period : Nat)
  /-- START ROLLOUT: the lot, its type and the type's CURRENT lot (R151). -/
  | rolloutStarted (lot : Nat) (type : ProcessType) (current : Option Nat)
  /-- START OVERDUE (R154). -/
  | overdueStarted (day minute : Nat)
  /-- CANCEL SWEEP (R155). -/
  | rolloutCancelled (lot cursor steps : Nat)
  /-- SWEEP STATUS: the engine's values as they stood (R156). -/
  | sweepStatus (values : SweepEngine)
  /-- TAKE NOTICE (R163). -/
  | notice (record : Notice) (length : Nat)
  /-- SET ATTENTION MODE (R169). -/
  | attentionMode (mode : AttnMode)
  /-- STATUS (R180). -/
  | status (record : StatusRecord)
  /-- IDENTIFY (R181). -/
  | identity
  deriving DecidableEq, Repr

/-- A reply (R188): a code with no body, ACCEPTED, or DONE with its body. -/
inductive Reply where
  | bare (code : ReplyCode)
  | accepted (ticket depth : Nat)
  | done (body : DoneBody)
  deriving DecidableEq, Repr

/-! ### Ports, queues, lines (chapter 10) -/

/-- The four framer states (R171). -/
inductive Framer where
  | idle
  | taking
  | answering (request : Request)
  | replyHeld (reply : Reply)
  deriving DecidableEq, Repr

/-- One port: its framer, and the bytes its last READ frame shifted out, which is the model's own record of
the data line (log entry 7). -/
structure PortState where
  framer : Framer
  shifted : List Byte
  deriving DecidableEq, Repr

/-- The Port Interface: one framer for each port, sharing no state (R171). -/
structure Ports where
  strip : PortState
  supervision : PortState
  deriving DecidableEq, Repr

/-- The Intake Queue and the Verdict Queue, heads first, and the ticket counter (R176, R177, R179). -/
structure Queues where
  intake : List QueuedReport
  verdicts : List Verdict
  ticketCounter : Nat
  deriving DecidableEq, Repr

/-- The lines that are state: READY, RESET and SUPERVISOR ENABLE (Table 0-2). -/
structure Lines where
  ready : Bool
  resetAsserted : Bool
  supervisorEnable : Level
  deriving DecidableEq, Repr

/-- What the part remembers of its resets (R185). -/
structure ResetStatus where
  resetCause : ResetCause
  brokeIntoSweep : Bool
  deriving DecidableEq, Repr

/-- The machine. `pending` is the queue of commands that wait, first in, first out (log entry 1). -/
structure State where
  pending : List Instr
  lines : Lines
  ports : Ports
  queues : Queues
  store : LaneStore
  policies : PerType PolicyRecord
  lots : LotTable
  clock : DayClock
  sweeps : SweepEngine
  attention : AttentionList
  status : ResetStatus
  deriving DecidableEq, Repr

/-- Where the machine stops. Each stop is SAFE: the spec gives no behaviour there. -/
inductive Fault where
  /-- Raised by `requestFrameBegin` and `readFrame` while a request frame is being received on the port,
  which Table 10-2 says cannot occur (R171; log entry 8). Safe. -/
  | frameOnBusyPort
  /-- Raised by `evaluation`, `prove` and `overdueStep` on a lane whose process type has no defined policy,
  which R27 says is so at no moment (log entry 15). Safe. -/
  | lanePolicyUndefined
  /-- Raised by `evaluation`, `prove` and `rolloutStep` when the lot they read is not in the Lot Table, which
  R43 and R48 rule out (log entry 15). Safe. -/
  | namedLotMissing
  /-- Raised by `takeNotice` when the head of the Attention List is no lane with a join stamp, which R160
  rules out (log entry 15). Safe. -/
  | vacantPlaceListed
  deriving DecidableEq, Repr

/-- Commands the model gives no meaning. Safe. -/
inductive Refusal where
  /-- Raised by `exec` for a command that has no meaning yet. Safe: the machine stops. No arm raises it. -/
  | notModelled (mnemonic : String)
  deriving DecidableEq, Repr

/-! ### Reset -/

/-- An undefined policy of a type with no lanes (R40). -/
def PolicyRecord.undefined : PolicyRecord := ⟨none, 0⟩

/-- A port whose framer is IDLE (R183). -/
def PortState.idle : PortState := ⟨.idle, []⟩

/-- The part as power-on clearing leaves it (R183 with R24, R40, R63, R143, R158, R170), READY high and both
input lines inactive (log entries 2 and 6). -/
def State.reset : State where
  pending := []
  lines := ⟨true, false, .inactive⟩
  ports := ⟨.idle, .idle⟩
  queues := ⟨[], [], 0⟩
  store := ⟨[], 0, [], 0⟩
  policies := ⟨.undefined, .undefined, .undefined, .undefined, .undefined, .undefined, .undefined, .undefined⟩
  lots := ⟨[], 0⟩
  clock := ⟨0, 0, 0, false, Config.powerOnDeadline⟩
  sweeps := ⟨.idle, false, 0, false, none⟩
  attention := ⟨[], 0, .level, 0, false⟩
  status := ⟨.powerOn, false⟩

end Sys2Proof.Machine
end

