-- ==== Sys2Proof/Machine/Flags.lean ====
section
/-! DEFINITION. The lines the part drives, as functions of its state, and the indications of its replies. -/
namespace Sys2Proof.Machine

/-- REPLY READY of a port is high exactly in REPLY HELD (R171). -/
def Framer.replyReady : Framer → Bool
  | .replyHeld _ => true
  | _ => false

/-- STRIP REPLY READY. -/
def stripReplyReady (s : State) : Bool := s.ports.strip.framer.replyReady

/-- SUPERVISION REPLY READY. -/
def supervisionReplyReady (s : State) : Bool := s.ports.supervision.framer.replyReady

/-- The ATTN line: released while READY is low (R170); in LEVEL mode it states that a lane is listed or the
sweep-done flag is set (R167); in PULSE mode it is asserted during a pulse (R168). -/
def attnLine (s : State) : Bool :=
  s.lines.ready &&
    match s.attention.mode with
    | .level => decide (0 < s.attention.length) || s.sweeps.sweepDone
    | .pulse => s.attention.pulseInProgress

/-- The ADJUSTED indication of SET POLICY: a stored value differs from the requested one; adding ACTION to
the notice mask does not set it (R36). -/
def adjusted (requested stored : Policy) : Bool :=
  decide (stored ≠ { requested with noticeMask := requested.noticeMask.add .action })

/-- The CLIPPED indication of ANNOUNCE LOT (R50). -/
def referencesClip (refs : Patches Nat) : Bool := refs.toList.any fun v => Config.densityTop < v

end Sys2Proof.Machine
end

