-- ==== Sys2Proof/Machine/Operands.lean ====
section
/-! DEFINITION. What the part makes of the values a request carries: identities in range, clamped and
clipped fields, the policy as stored, the report as taken in, and the structural value checks. -/
namespace Sys2Proof.Machine

/-- Replace an out-of-range value with the nearest end of its range (section 0.6). -/
def clamp (low high x : Int) : Int := max low (min high x)

/-- The same for an unsigned value. -/
def clampNat (low high n : Nat) : Nat := max low (min high n)

/-- A process type of a request, when it is one of 0 to 7 (Table 0-3). -/
def processType (n : Nat) : Option ProcessType := if h : n < 8 then some ⟨n, h⟩ else none

/-- A process slot of a request, when it is one of 0 to 3 (Table 0-3). -/
def slotNumber (n : Nat) : Option SlotNumber := if h : n < 4 then some ⟨n, h⟩ else none

/-- Offsets as stored: each clamped to −500 to +500 mD (R13, R15). -/
def storedOffsets (o : Points Int) : Points Int := Points.ofFn fun p => clamp (-500) 500 (o.pick p)

/-! ### SET POLICY (R29 to R35) -/

/-- The four limits of a point: clamped, then the warn limits brought inside the action limits (R29). -/
def storedLimits (l : Limits) : Limits :=
  let aL := clamp (-1000) 0 l.actionLow
  let aH := clamp 0 1000 l.actionHigh
  ⟨aL, max (clamp (-1000) 0 l.warnLow) aL, min (clamp 0 1000 l.warnHigh) aH, aH⟩

/-- The run length: 0, or 3 to 15 with 1 and 2 stored as 3 (R32). -/
def storedRunLength (n : Nat) : Nat := if n = 0 then 0 else clampNat 3 15 n

/-- A policy body as SET POLICY stores it (R29 to R35): ACTION stands in every stored mask. -/
def storedPolicy (b : Policy) : Policy where
  used := b.used
  limits := Points.ofFn fun p => storedLimits (b.limits.pick p)
  driftThreshold := Points.ofFn fun p => clampNat 1 1000 (b.driftThreshold.pick p)
  filterShift := clampNat 1 4 b.filterShift
  deadband := clampNat 0 100 b.deadband
  runLength := storedRunLength b.runLength
  settleCount := clampNat 1 8 b.settleCount
  clearCount := clampNat 1 8 b.clearCount
  overdueLimit := clampNat 1 7 b.overdueLimit
  noticeMask := b.noticeMask.add .action

/-! ### Strip reports (R64, R65) -/

/-- Whether a density is clipped: it was sent above 4000 (R65). -/
def densityClips (d : Option Nat) : Bool := d.any fun v => Config.densityTop < v

/-- A strip report as the port takes it in (R65). -/
def takeIn (r : StripReport) : Report where
  store := r.store
  slot := r.slot
  lot := r.lot
  day := r.day
  densities := Patches.map (Option.map fun v => min v Config.densityTop) r.densities
  clipped := Patches.map densityClips r.densities

/-- Reference densities as ANNOUNCE LOT stores them (R50). -/
def storedReferences (refs : Patches Nat) : Patches Nat := Patches.map (fun v => min v Config.densityTop) refs

/-! ### The framer's value checks (R187, checks 4 and 5) -/

/-- A strip report with a store number, a slot and a lot number that can exist (R64). -/
def reportStructureOk (r : StripReport) : Bool := r.store != 0 && decide (r.slot ≤ 3) && r.lot != 0

/-- What the framer checks of the values of a request before it hands the request on: the strip report's
identities and the attention mode (R187; the choice bytes are checked where the frame is read). -/
def structureOk : Request → Bool
  | .submit r | .prove r => reportStructureOk r
  | .setAttentionMode m => decide (m ≤ 1)
  | _ => true

end Sys2Proof.Machine
end

