-- ==== Sys2Proof/Machine/Ops.lean ====
section
/-! DEFINITION. The operations the commands share: the framers and the taking of a request, the directory,
the naming of lanes, lots' user counts, the raising of causes, the end of a sweep, retirement. -/
namespace Sys2Proof.Machine

/-! ### Accessors of the per-type and per-slot records -/

def PerType.get {α : Type} (x : PerType α) : ProcessType → α
  | 0 => x.t0
  | 1 => x.t1
  | 2 => x.t2
  | 3 => x.t3
  | 4 => x.t4
  | 5 => x.t5
  | 6 => x.t6
  | 7 => x.t7

def PerType.put {α : Type} (x : PerType α) (t : ProcessType) (a : α) : PerType α :=
  match t with
  | 0 => { x with t0 := a }
  | 1 => { x with t1 := a }
  | 2 => { x with t2 := a }
  | 3 => { x with t3 := a }
  | 4 => { x with t4 := a }
  | 5 => { x with t5 := a }
  | 6 => { x with t6 := a }
  | 7 => { x with t7 := a }

def Slots.get {α : Type} (x : Slots α) : SlotNumber → α
  | 0 => x.s0
  | 1 => x.s1
  | 2 => x.s2
  | 3 => x.s3

def Slots.put {α : Type} (x : Slots α) (i : SlotNumber) (a : α) : Slots α :=
  match i with
  | 0 => { x with s0 := a }
  | 1 => { x with s1 := a }
  | 2 => { x with s2 := a }
  | 3 => { x with s3 := a }

/-- Four empty slots. -/
def Slots.vacant : Slots (Option Nat) := ⟨none, none, none, none⟩

/-! ### State updates, one per block -/

/-- The port of the state. -/
def State.port (s : State) : Port → PortState
  | .strip => s.ports.strip
  | .supervision => s.ports.supervision

/-- The state with one port's record replaced. -/
def State.withPort (s : State) (p : Port) (x : PortState) : State :=
  match p with
  | .strip => { s with ports := { s.ports with strip := x } }
  | .supervision => { s with ports := { s.ports with supervision := x } }

/-- The framer of a port. -/
def State.framer (s : State) (p : Port) : Framer := (s.port p).framer

/-- The state with one framer moved. -/
def State.withFramer (s : State) (p : Port) (f : Framer) : State :=
  s.withPort p { s.port p with framer := f }

/-- The framer holds a reply and raises REPLY READY (R171). -/
def State.hold (s : State) (p : Port) (r : Reply) : State := s.withFramer p (.replyHeld r)

/-- The board drives SUPERVISOR ENABLE to a level (R18; log entry 6). -/
def State.drive (s : State) (line : Level) : State := { s with lines := { s.lines with supervisorEnable := line } }

/-- The lane at a pool place (R1). -/
def State.lane (s : State) (n : Nat) : Option Lane := Table.find n s.store.pool

/-- The state with the lane of a place written. -/
def State.putLane (s : State) (n : Nat) (l : Lane) : State :=
  { s with store := { s.store with pool := Table.put n l s.store.pool } }

/-- The state with the Lot Table's entries written. -/
def State.withLots (s : State) (t : Table Lot) : State := { s with lots := { s.lots with entries := t } }

/-- The state with the Day Clock written. -/
def State.withClock (s : State) (c : DayClock) : State := { s with clock := c }

/-- The state with the Sweep Engine written. -/
def State.withSweeps (s : State) (e : SweepEngine) : State := { s with sweeps := e }

/-- The state with the Attention List written. -/
def State.withAttention (s : State) (a : AttentionList) : State := { s with attention := a }

/-- The state with one type's policy record written. -/
def State.withPolicy (s : State) (t : ProcessType) (r : PolicyRecord) : State :=
  { s with policies := s.policies.put t r }

/-- The part takes its own steps: READY is high and RESET is released (R182, R184). -/
def State.awake (s : State) : Bool := s.lines.ready && !s.lines.resetAsserted

/-! ### Taking a request (R173 to R175, R182, R184) -/

/-- What becomes of a request at its port. -/
inductive Admission where
  | ignored
  | answered (code : ReplyCode)
  | taken
  deriving DecidableEq, Repr

/-- While RESET is asserted every frame is ignored (R184). While the framer is ANSWERING another request, a
frame is ignored (R173). A request that fails the framer's checks is answered MALFORMED (R174), and while
READY is low one that passes is answered NOT READY (R175). Otherwise its owning block takes it. A request
that does not stand ANSWERING is taken with its frame, as one event (DESIGN CHOICE, log entry 3). -/
def admission (p : Port) (r : Request) (s : State) : Admission :=
  if s.lines.resetAsserted then .ignored
  else if (match s.framer p with | .answering r' => decide (r' ≠ r) | _ => false) then .ignored
  else if !structureOk r then .answered .malformed
  else if !s.lines.ready then .answered .notReady
  else .taken

/-- What the owning block gives: the state after the request and its reply. -/
abbrev Taken := Except Fault (State × Reply)

/-- A request answered with a code alone. -/
def answer (s : State) (code : ReplyCode) : Taken := .ok (s, .bare code)

/-- A request answered DONE. -/
def answerDone (s : State) (body : DoneBody) : Taken := .ok (s, .done body)

/-- The owning block takes the request in one event, and the framer holds its reply (R175). -/
def serve (p : Port) (r : Request) (block : State → Taken) (s : State) : Host.Outcome State Fault Refusal :=
  match admission p r s with
  | .ignored => .next s
  | .answered code => .next (s.hold p (.bare code))
  | .taken =>
    match block s with
    | .ok (t, reply) => .next (t.hold p reply)
    | .error f => .fault f

/-! ### The Site Directory (R7 to R10) -/

/-- The result of a search of the directory (R8). -/
inductive Search where
  | found (position : Nat)
  | notFound (position : Nat)
  deriving DecidableEq, Repr

/-- The search continued one entry later. -/
def Search.later : Search → Search
  | .found n => .found (n + 1)
  | .notFound n => .notFound (n + 1)

/-- The search of R8: the position of the store's entry, or the position it would take. -/
def searchSites (store : Nat) : List Site → Search
  | [] => .notFound 0
  | e :: rest =>
    if e.store = store then .found 0
    else if store < e.store then .notFound 0
    else (searchSites store rest).later

/-- The slots of a store, when the directory has the store (R8). -/
def siteSlots (store : Nat) (d : List Site) : Option (Slots (Option Nat)) :=
  match searchSites store d with
  | .found n => (d[n]?).map Site.slots
  | .notFound _ => none

/-- Name a lane in a store's slot, inserting an entry when the store is new (R9); whether one was inserted. -/
def nameSlot (store : Nat) (slot : SlotNumber) (lane : Nat) (d : List Site) : List Site × Bool :=
  match searchSites store d with
  | .found n => (d.modify n fun e => { e with slots := e.slots.put slot (some lane) }, false)
  | .notFound n => (d.insertIdx n ⟨store, Slots.vacant.put slot (some lane)⟩, true)

/-- Empty a store's slot, removing the entry when that was its last occupied slot (R10); whether it was
removed. -/
def emptySlot (store : Nat) (slot : SlotNumber) (d : List Site) : List Site × Bool :=
  match searchSites store d with
  | .notFound _ => (d, false)
  | .found n =>
    match d[n]? with
    | none => (d, false)
    | some e =>
      let left := e.slots.put slot none
      if left = Slots.vacant then (d.eraseIdx n, true) else (d.set n { e with slots := left }, false)

/-- The lane a store and slot name, if any: an empty slot or a VACANT place is no lane (R1, R8). -/
def State.laneAt (s : State) (store slot : Nat) : Option (Nat × Lane) :=
  match slotNumber slot with
  | none => none
  | some i =>
    match (siteSlots store s.store.directory).bind fun x => x.get i with
    | none => none
    | some n => (s.lane n).map fun l => (n, l)

/-! ### Naming a lane in a request (R11) -/

/-- What the name of a request comes to. -/
inductive Named where
  | malformed
  | noLane
  | lane (number : Nat) (lane : Lane)
  deriving DecidableEq, Repr

/-- R11, with the structural faults of R8 and R11 first. -/
def State.named (s : State) : LaneName → Named
  | .bySlot store slot =>
    if store = 0 ∨ 3 < slot then .malformed
    else match s.laneAt store slot with
      | some (n, l) => .lane n l
      | none => .noLane
  | .byNumber n =>
    if Config.poolPlaces ≤ n then .malformed
    else match s.lane n with
      | some l => .lane n l
      | none => .noLane

/-- A request that acts on one lane: MALFORMED and NO LANE are answered here (R11). -/
def onLane (name : LaneName) (act : Nat → Lane → State → Taken) (s : State) : Taken :=
  match s.named name with
  | .malformed => answer s .malformed
  | .noLane => answer s .noLane
  | .lane n l => act n l s

/-- The lock gate of R15: the lane is LOCKED and SUPERVISOR ENABLE is inactive (R18). -/
def State.lockGate (s : State) (l : Lane) : Bool := l.locked && decide (s.lines.supervisorEnable = .inactive)

/-! ### Lots (R43, R46 to R48) -/

/-- One more lane names the lot. -/
def addUser (n : Nat) (t : Table Lot) : Table Lot := Table.modify n (fun l => { l with users := l.users + 1 }) t

/-- One lane fewer names the lot. -/
def dropUser (n : Nat) (t : Table Lot) : Table Lot := Table.modify n (fun l => { l with users := l.users - 1 }) t

/-- The same for a lot that may be absent. -/
def dropUser? (n : Option Nat) (t : Table Lot) : Table Lot :=
  match n with
  | none => t
  | some n => dropUser n t

/-- A lot moved to a state. -/
def setLotState (n : Nat) (st : LotState) (t : Table Lot) : Table Lot :=
  Table.modify n (fun l => { l with state := st }) t

/-- The number of the lot of a type that is in a state; at most one of a type is ROLLING, at most one
CURRENT (R48). -/
def lotInState (type : ProcessType) (st : LotState) (t : Table Lot) : Option Nat :=
  (t.find? fun e => e.2.type = type && e.2.state = st).map Prod.fst

/-- Rollout completion: the rolling lot becomes CURRENT and the type's CURRENT lot SUPERSEDED (R46). -/
def promoteLot (n : Nat) (t : Table Lot) : Table Lot :=
  match Table.find n t with
  | none => t
  | some rolling =>
    t.map fun e =>
      if e.1 = n then (e.1, { e.2 with state := .current })
      else if e.2.type = rolling.type ∧ e.2.state = .current then (e.1, { e.2 with state := .superseded })
      else e

/-! ### The Attention List (R160, R161, R165, R168) -/

/-- One pulse more is owed, up to 255, in PULSE mode (R168; log entry 17). -/
def AttentionList.owe (a : AttentionList) : AttentionList :=
  match a.mode with
  | .level => a
  | .pulse => { a with pulsesOwed := min (a.pulsesOwed + 1) 255 }

/-- A lane joins at the tail (R161). -/
def AttentionList.join (a : AttentionList) (n : Nat) : AttentionList :=
  AttentionList.owe { a with order := a.order ++ [n], length := a.length + 1 }

/-- A lane leaves, wherever it stands; the others keep their order (R163, R165). -/
def AttentionList.leave (a : AttentionList) (n : Nat) : AttentionList :=
  if n ∈ a.order then { a with order := a.order.erase n, length := a.length - 1 } else a

/-- A cause raised on the lane of a place, filtered by the notice mask of its type (R161): dropped, or the
lane joins with it, or it merges. ACTION passes every mask. -/
def State.raise (s : State) (mask : Causes) (n : Nat) (c : Cause) : State :=
  if mask.has c || c = .action then
    match s.lane n with
    | none => s
    | some l =>
      if l.causes = .empty then
        (s.putLane n { l with causes := l.causes.add c, joined := some ⟨s.clock.day, s.clock.minute⟩ }).withAttention
          (s.attention.join n)
      else s.putLane n { l with causes := l.causes.add c }
  else s

/-- The causes of one event, raised in the order they arose (R162). -/
def State.raiseAll (s : State) (mask : Causes) (n : Nat) (cs : List Cause) : State :=
  cs.foldl (fun t c => t.raise mask n c) s

/-- A counter raised by one, stopping at the top of its range (R4). -/
def saturate (top n : Nat) : Nat := min (n + 1) top

/-! ### Retirement (R19) -/

/-- A lane retired, in any state, and whether its site entry was removed (R19, R10, R165, R27). -/
def State.retire (s : State) (n : Nat) (l : Lane) : State × Bool :=
  let (directory, removed) := emptySlot l.store l.slot s.store.directory
  let record := s.policies.get l.type
  ({ s with
      store := {
        pool := Table.drop n s.store.pool
        occupiedLanes := s.store.occupiedLanes - 1
        directory := directory
        siteCount := if removed then s.store.siteCount - 1 else s.store.siteCount }
      policies := s.policies.put l.type { record with laneCount := record.laneCount - 1 }
      lots := { s.lots with entries := dropUser? l.pendingLot (dropUser l.activeLot s.lots.entries) }
      attention := s.attention.leave n },
    removed)

/-! ### The resets of a lane (R125, R16) -/

/-- The lane enters SETTLING with its progress counts, trends and run counts reset (R125). -/
def Lane.resettle (l : Lane) : Lane :=
  { l with
    state := .settling
    settleProgress := 0
    cleanProgress := 0
    trend := Points.all ⟨0, false⟩
    runCount := Points.all 0 }

/-! ### The Sweep Engine (R145, R146) -/

/-- A sweep at its beginning (R145). -/
def Sweep.start (kind : SweepKind) (origin : Origin) : Sweep := ⟨kind, origin, 0, 0⟩

/-- The lot changes that the end of a sweep makes: a completed rollout promotes its lot (R153), a cancelled
or broken one returns it to ANNOUNCED (R47). -/
def endLots (kind : SweepKind) (ending : Ending) (t : Table Lot) : Table Lot :=
  match kind, ending with
  | .rollout n, .completed => promoteLot n t
  | .rollout n, .cancelled => setLotState n .announced t
  | .rollout n, .broken => setLotState n .announced t
  | _, _ => t

/-- The endings after which the flags act: COMPLETED and CANCELLED, not those a reset makes (R146). -/
def Ending.byEngine : Ending → Bool
  | .completed | .cancelled => true
  | .broken | .abandoned => false

/-- The event that ends a sweep, in the order of R146. -/
def State.endSweep (s : State) (ending : Ending) (w : Sweep) : State :=
  let signals := ending.byEngine && decide (w.origin = .request)
  let follows := ending.byEngine && s.sweeps.pendingOverdue
  { s with
    lots := { s.lots with entries := endLots w.kind ending s.lots.entries }
    sweeps := {
      engine := if follows then .running (Sweep.start .overdue .deadline) else .idle
      pendingOverdue := s.sweeps.pendingOverdue && !follows
      periodNumber := s.sweeps.periodNumber
      sweepDone := s.sweeps.sweepDone || signals
      lastSweep := some ⟨w.kind, w.origin, ending, w.cursor, w.steps⟩ }
    attention := if signals then s.attention.owe else s.attention }

/-- The end of a step: the cursor rises by one, and the step at place 1535 completes the sweep (R145). -/
def State.advance (s : State) (w : Sweep) (worked : Bool) : State :=
  let w' : Sweep := { w with cursor := w.cursor + 1, steps := if worked then w.steps + 1 else w.steps }
  if w'.cursor < Config.poolPlaces then s.withSweeps { s.sweeps with engine := .running w' }
  else s.endSweep .completed w'

/-- An overdue sweep is asked for by a deadline tick: started, or remembered while a sweep runs (R132). -/
def State.askOverdue (s : State) : State :=
  match s.sweeps.engine with
  | .idle => s.withSweeps { s.sweeps with engine := .running (Sweep.start .overdue .deadline) }
  | .running _ => s.withSweeps { s.sweeps with pendingOverdue := true }

/-! ### Queues (R176, R178) -/

/-- A verdict pushed onto the tail of the Verdict Queue (R178). -/
def State.pushVerdict (s : State) (v : Verdict) : State :=
  { s with queues := { s.queues with verdicts := s.queues.verdicts ++ [v] } }

end Sys2Proof.Machine
end

