-- ==== Sys2Proof/Machine/Attention.lean ====
section
/-! DEFINITION. The Attention List's requests and the ATTN line's pulses (chapter 9). -/
namespace Sys2Proof.Machine

/-- The notice record of a lane as it stands (R164). -/
def noticeOf (n : Nat) (l : Lane) (stamp : JoinStamp) : Notice where
  lane := n
  store := l.store
  slot := l.slot
  causes := l.causes
  state := l.state
  locked := l.locked
  autoCross := l.autoCross
  autoClear := l.autoClear
  overdue := l.overdue
  stamp := stamp

/-- TAKE NOTICE at the Attention List (R163). -/
def takeNoticeBlock (s : State) : Taken :=
  match s.attention.order with
  | [] => answer s .listEmpty
  | n :: rest =>
    match s.lane n with
    | none => .error .vacantPlaceListed
    | some l =>
      match l.joined with
      | none => .error .vacantPlaceListed
      | some stamp =>
        let length := s.attention.length - 1
        answerDone
          ((s.putLane n { l with causes := .empty, joined := none }).withAttention
            { s.attention with order := rest, length := length })
          (.notice (noticeOf n l stamp) length)

/-- TAKE NOTICE (R163). -/
def execTakeNotice (s : State) : Host.Outcome State Fault Refusal :=
  serve .supervision .takeNotice takeNoticeBlock s

/-- The mode a mode byte names (R187, check 4). -/
def attnModeOf (mode : Nat) : Option AttnMode :=
  match mode with
  | 0 => some .level
  | 1 => some .pulse
  | _ => none

/-- SET ATTENTION MODE at the Attention List: the mode written, the pulses owed discarded and a pulse in
progress cut short (R169). -/
def setAttentionModeBlock (mode : Nat) (s : State) : Taken :=
  match attnModeOf mode with
  | none => answer s .malformed
  | some m =>
    answerDone (s.withAttention { s.attention with mode := m, pulsesOwed := 0, pulseInProgress := false })
      (.attentionMode m)

/-- SET ATTENTION MODE (R169). -/
def execSetAttentionMode (mode : Nat) (s : State) : Host.Outcome State Fault Refusal :=
  serve .supervision (.setAttentionMode mode) (setAttentionModeBlock mode) s

/-- ATTN_PULSE_START (R168): a pulse is given when pulses are owed and none is in progress; the line gives
none in LEVEL mode, while READY is low or while RESET is asserted. -/
def execAttnPulseStart (s : State) : Host.Outcome State Fault Refusal :=
  if s.awake && decide (s.attention.mode = .pulse) && decide (0 < s.attention.pulsesOwed) && !s.attention.pulseInProgress
  then .next (s.withAttention { s.attention with pulseInProgress := true })
  else .next s

/-- ATTN_PULSE_END (R168): the pulse in progress releases the line, and one pulse fewer is owed. -/
def execAttnPulseEnd (s : State) : Host.Outcome State Fault Refusal :=
  if s.attention.pulseInProgress then
    .next (s.withAttention { s.attention with pulseInProgress := false, pulsesOwed := s.attention.pulsesOwed - 1 })
  else .next s

end Sys2Proof.Machine
end

