-- ==== Sys2Proof/Machine/Judge.lean ====
section
/-! DEFINITION. The judgement of one strip report against one lane: the acceptance checks of Table 4-2, lot
resolution (R54 to R59), the arithmetic stages one to seven (R76 to R102), what a reading leaves in the lane
(R79, R80) and the lane state machine (R111 to R120). EVALUATION commits it; PROVE only reports it. -/
namespace Sys2Proof.Machine

/-! ### Stages one to three: plot values, aims, deviations (R76 to R78) -/

/-- The four formulas of R76, on one channel's patches. -/
def plot (d : Strip Int) : Quantity → Int
  | .fog => d.base
  | .speed => d.low - d.base
  | .contrast => d.high - d.low
  | .dmax => d.max

/-- A plot value of a reading: absent when a patch it uses is absent (R76). -/
def plotValue (d : Strip (Option Nat)) : Quantity → Option Int
  | .fog => d.base.map fun v => (v : Int)
  | .speed => d.low.bind fun l => d.base.map fun b => (l : Int) - b
  | .contrast => d.high.bind fun h => d.low.map fun l => (h : Int) - l
  | .dmax => d.max.map fun v => (v : Int)

/-- Whether a plot point uses a clipped patch (R78). -/
def usesClipped (c : Strip Bool) : Quantity → Bool
  | .fog => c.base
  | .speed => c.low || c.base
  | .contrast => c.high || c.low
  | .dmax => c.max

/-- The aim of a point: the reference plot value plus the lane's offset, not clamped (R77). -/
def aim (references : Patches Nat) (offsets : Points Int) (p : Point) : Int :=
  plot (Strip.map (fun v : Nat => (v : Int)) (references.get p.channel)) p.quantity + offsets.pick p

/-! ### Stages four to six: zone, trend, run count (R88 to R98) -/

/-- The zone of a deviation (Table 5-1). -/
def zoneOf (l : Limits) (d : Int) : Zone :=
  if d < l.actionLow then .actionLow
  else if d < l.warnLow then .warnLow
  else if d ≤ l.warnHigh then .centre
  else if d ≤ l.actionHigh then .warnHigh
  else .actionHigh

/-- The step of the trend filter for a difference T − E: the difference divided by 2 to the power k, rounded
to nearest with halves away from zero (R93). It is 0 within the bands of Table 5-4, so a trend rests short of its
target by 1 tu at k = 2 and 3 tu at k = 3 (R95), where R31 says that below k = 4 the target is reached exactly: the
model follows chapter 5, to which R31 refers (DEDUCED, log entry 21). -/
def filterStep (k : Nat) (difference : Int) : Int :=
  difference.sign * (((difference.natAbs + 2 ^ k / 2) / 2 ^ k : Nat) : Int)

/-- The new trend of an evaluated point: seeded to its target, or stepped toward it (R91 to R93). -/
def newTrend (k : Nat) (e : Trend) (d : Int) : Int :=
  let target := 16 * d
  if e.seeded then e.value + filterStep k (target - e.value) else target

/-- The new run count of an evaluated point, held at ±15 (R98). -/
def newRunCount (deadband : Nat) (r d : Int) : Int :=
  if (deadband : Int) < d then min (if 0 < r then r + 1 else 1) 15
  else if d < -(deadband : Int) then max (if r < 0 then r - 1 else -1) (-15)
  else 0

/-- Stages two to six for one point whose plot value is `v` (R77, R78, R87). -/
def judgePoint (pol : Policy) (lane : Lane) (references : Patches Nat) (clipped : Patches Bool) (p : Point)
    (v : Int) : PointResult :=
  let raw := v - aim references lane.offsets p
  let d := clamp (-1000) 1000 raw
  { deviation := d
    gross := decide (d ≠ raw)
    clipped := usesClipped (clipped.get p.channel) p.quantity
    zone := zoneOf (pol.limits.pick p) d
    trend := newTrend pol.filterShift (lane.trend.pick p) d
    runCount := newRunCount pol.deadband (lane.runCount.pick p) d }

/-- The plot value of a point that is evaluable: its flag is set and the value can be formed (R74). -/
def evaluable (pol : Policy) (rep : Report) (p : Point) : Option Int :=
  if pol.used.pick p then plotValue (rep.densities.get p.channel) p.quantity else none

/-- The results of the evaluated points; a point not evaluated has none (R87, R101). -/
def results (pol : Policy) (lane : Lane) (references : Patches Nat) (rep : Report) :
    Points (Option PointResult) :=
  Points.ofFn fun p => (evaluable pol rep p).map (judgePoint pol lane references rep.clipped p)

/-- The entries of a verdict: one for each evaluated point, in plot-point order (R81). -/
def entriesOf (rs : Points (Option PointResult)) : List (Point × PointResult) :=
  Point.order.filterMap fun p => (rs.pick p).map fun r => (p, r)

/-! ### Stage seven: the reading outcome (R102) -/

/-- A point in an ACTION zone (R88). -/
def Zone.isAction : Zone → Bool
  | .actionLow | .actionHigh => true
  | .warnLow | .centre | .warnHigh => false

/-- A point in a WARN zone (R88). -/
def Zone.isWarn : Zone → Bool
  | .warnLow | .warnHigh => true
  | .actionLow | .centre | .actionHigh => false

/-- The TREND test of one point: its new trend at or beyond sixteen times its drift threshold, or, when the
run rule is on, its new run count at or beyond the run length (Table 5-5, R100). -/
def trendFlagged (pol : Policy) (p : Point) (r : PointResult) : Bool :=
  decide (16 * pol.driftThreshold.pick p ≤ r.trend.natAbs) ||
    (decide (pol.runLength ≠ 0) && decide (pol.runLength ≤ r.runCount.natAbs))

/-- The cases of Table 5-5, in order. -/
def outcomeOf (pol : Policy) (entries : List (Point × PointResult)) : ReadingOutcome :=
  if entries.any fun e => e.2.zone.isAction then .limit
  else if entries.any fun e => trendFlagged pol e.1 e.2 then .trend
  else if entries.any fun e => e.2.zone.isWarn then .warn
  else .clean

/-! ### Lot resolution (R54 to R59) -/

/-- The case of Table 3-4 that decides. -/
def resolveLot (lots : Table Lot) (lane : Lane) (lot : Nat) : LotCase :=
  if lot = lane.activeLot then .active
  else if lane.pendingLot = some lot then .pending
  else
    match Table.find lot lots with
    | none => .unknown
    | some e =>
      if e.type = lane.type ∧ (e.state = .current ∨ e.state = .rolling) ∧ lane.autoCross then .auto
      else .mismatch

/-- The crossover indication of an accepted case (Table 3-4). -/
def LotCase.crossover : LotCase → Crossover
  | .pending => .pending
  | .auto => .auto
  | .active | .mismatch | .unknown => .none

/-- The refusal of a case that accepts nothing (Table 3-4). -/
def LotCase.refusal : LotCase → Option Reason
  | .mismatch => some .lotMismatch
  | .unknown => some .lotUnknown
  | .active | .pending | .auto => none

/-- The lane after a crossover: the report's lot active, no lot pending, every run count 0, one crossover
counted (R56, R57); the lane as it stands in the other cases. -/
def crossLane (c : LotCase) (lot : Nat) (lane : Lane) : Lane :=
  match c.crossover with
  | .none => lane
  | .pending | .auto =>
    { lane with
      activeLot := lot
      pendingLot := none
      runCount := Points.all 0
      counters := { lane.counters with crossovers := saturate 255 lane.counters.crossovers } }

/-- The user counts after the crossover of a case, on a lane with the lots it had before (Table 3-2). -/
def crossUsers (c : LotCase) (lot : Nat) (before : Lane) (t : Table Lot) : Table Lot :=
  match c.crossover with
  | .none => t
  | .pending => dropUser before.activeLot t
  | .auto => addUser lot (dropUser? before.pendingLot (dropUser before.activeLot t))

/-- CROSSOVER, when the case makes one (R56, R57). -/
def LotCase.causes (c : LotCase) : List Cause :=
  match c.crossover with
  | .none => []
  | .pending | .auto => [.crossover]

/-! ### The lane state machine (R110 to R120) -/

/-- One transition: the new state and progress counts, and the cause it raises. -/
structure Move where
  state : LaneState
  settle : Nat
  clean : Nat
  cause : Option Cause
  deriving DecidableEq, Repr

/-- A reading of DRIFT or ACTION that is CLEAN (R117). -/
def clearStep (pol : Policy) (autoClear : Bool) (st : LaneState) (clean : Nat) : Move :=
  let raised := min (clean + 1) 8
  if raised < pol.clearCount then ⟨st, 0, raised, none⟩
  else if autoClear then ⟨.steady, 0, 0, some .cleared⟩
  else ⟨st, 0, pol.clearCount, none⟩

/-- A reading of SETTLING that is not LIMIT (R112). -/
def settleStep (pol : Policy) (settle : Nat) : Move :=
  let raised := min (settle + 1) 8
  if pol.settleCount ≤ raised then ⟨.steady, 0, 0, none⟩ else ⟨.settling, raised, 0, none⟩

/-- Table 6-2, with the counts R110 gives each state. A HELD lane is never judged (R111). -/
def moveLane (pol : Policy) (lane : Lane) (o : ReadingOutcome) : Move :=
  match lane.state, o with
  | .held, _ => ⟨.held, lane.settleProgress, lane.cleanProgress, none⟩
  | .action, .limit | .action, .trend | .action, .warn => ⟨.action, 0, 0, none⟩
  | .action, .clean => clearStep pol lane.autoClear .action lane.cleanProgress
  | .drift, .trend | .drift, .warn => ⟨.drift, 0, 0, none⟩
  | .drift, .clean => clearStep pol lane.autoClear .drift lane.cleanProgress
  | .settling, .trend | .settling, .warn | .settling, .clean => settleStep pol lane.settleProgress
  | .steady, .trend | .watch, .trend | .watch, .warn => ⟨.drift, 0, 0, some .drift⟩
  | .steady, .warn => ⟨.watch, 0, 0, some .watch⟩
  | .steady, .clean | .watch, .clean => ⟨.steady, 0, 0, none⟩
  | .settling, .limit | .steady, .limit | .watch, .limit | .drift, .limit => ⟨.action, 0, 0, some .action⟩

/-! ### What a reading leaves in the lane (R79, R80, R104, R120) -/

/-- One refusal counted (R75). -/
def countRefusal (lane : Lane) : Lane :=
  { lane with counters := { lane.counters with refusals := saturate 255 lane.counters.refusals } }

/-- The per-point results of an evaluated reading (R79, R104). -/
def writePoints (rs : Points (Option PointResult)) (lane : Lane) : Lane :=
  { lane with
    trend := Points.ofFn fun p => match rs.pick p with
      | some r => ⟨r.trend, true⟩
      | none => lane.trend.pick p
    runCount := Points.ofFn fun p => match rs.pick p with
      | some r => r.runCount
      | none => lane.runCount.pick p
    lastDeviation := Points.ofFn fun p => (rs.pick p).map PointResult.deviation }

/-- The day fields, the OVERDUE mark and the readings and reruns counters (R80). -/
def writeDay (day : Nat) (lane : Lane) : Lane :=
  let rerun := decide (lane.lastDay = some day)
  { lane with
    lastDay := some day
    rerunsToday := if rerun then lane.rerunsToday + 1 else 0
    overdue := false
    counters := { lane.counters with
      readings := saturate 65535 lane.counters.readings
      reruns := if rerun then saturate 255 lane.counters.reruns else lane.counters.reruns } }

/-- The transition and the counters of R120. -/
def writeMove (m : Move) (o : ReadingOutcome) (lane : Lane) : Lane :=
  let c := lane.counters
  { lane with
    state := m.state
    settleProgress := m.settle
    cleanProgress := m.clean
    counters := { c with
      warns := if o = .warn then saturate 255 c.warns else c.warns
      driftEntries := if m.cause = some .drift then saturate 255 c.driftEntries else c.driftEntries
      actionEntries := if m.cause = some .action then saturate 255 c.actionEntries else c.actionEntries } }

/-! ### The judgement (R67) -/

/-- What the judgement of a report comes to: the lot case when check 6 was reached, the lane as the event
leaves it but for its cause set, the causes in the order they arose, and the verdict's body. -/
structure Judgement where
  lotCase : Option LotCase
  lane : Lane
  causes : List Cause
  body : VerdictBody
  deriving DecidableEq, Repr

/-- Checks 2 to 5 of Table 4-2 (R69 to R72): the refusal they give, if any. -/
def dayRefusal (today : Nat) (lane : Lane) (day : Nat) : Option Reason :=
  if lane.state = .held then some .held
  else if day < lane.lastDay.getD lane.createdDay then some .stale
  else if today < day then some .ahead
  else if lane.lastDay = some day ∧ lane.rerunsToday = 2 then some .rerunLimit
  else none

/-- Whether no plot point is both used and computable (check 7, R74). -/
def noData (pol : Policy) (rep : Report) : Bool := Point.order.all fun p => (evaluable pol rep p).isNone

/-- An accepted report against the lane after any crossover, with its active lot's references (R67). -/
def judgeAccepted (pol : Policy) (references : Patches Nat) (c : LotCase) (lane : Lane) (rep : Report) :
    Judgement :=
  let rs := results pol lane references rep
  let entries := entriesOf rs
  let o := outcomeOf pol entries
  let m := moveLane pol lane o
  { lotCase := some c
    lane := writeMove m o (writeDay rep.day (writePoints rs lane))
    causes := c.causes ++ m.cause.toList
    body := .evaluated o m.state c.crossover entries }

/-- The judgement of a report against the lane that check 1 found (R67, R83). -/
def judge (lots : Table Lot) (pol : Policy) (today : Nat) (lane : Lane) (rep : Report) : Except Fault Judgement :=
  match dayRefusal today lane rep.day with
  | some reason => .ok ⟨none, countRefusal lane, [], .refused reason⟩
  | none =>
    let c := resolveLot lots lane rep.lot
    match c.refusal with
    | some reason => .ok ⟨some c, countRefusal lane, [.lotRefused], .refused reason⟩
    | none =>
      let crossed := crossLane c rep.lot lane
      if noData pol rep then .ok ⟨some c, countRefusal crossed, c.causes, .refused .noData⟩
      else
        match Table.find crossed.activeLot lots with
        | none => .error .namedLotMissing
        | some lot => .ok (judgeAccepted pol lot.references c crossed rep)

/-- The verdict of a judgement (R75, R81). -/
def verdictOf (ticket : Option Nat) (rep : Report) (lane : Option Nat) (body : VerdictBody) : Verdict :=
  ⟨ticket, rep.store, rep.slot, lane, rep.clipped, body⟩

/-! ### Missed strips (R129, R138, R139) -/

/-- The weekday of a business day, 0 Monday to 6 Sunday (R129). -/
def DayClock.weekday (c : DayClock) (day : Nat) : Nat := (day + c.weekdayBase) % 7

/-- An expected day of a lane: its weekday is not in the rest mask (R138). -/
def expectedDay (c : DayClock) (rest : Weekdays) (day : Nat) : Bool := !rest.has (c.weekday day)

/-- The number of expected days among `n` days from `a` on, counted one by one (R138). -/
def countDays (c : DayClock) (rest : Weekdays) (a : Nat) : Nat → Nat
  | 0 => 0
  | n + 1 => countDays c rest a n + if expectedDay c rest (a + n) then 1 else 0

/-- The number of weekdays not in a rest mask (R139). -/
def workdays (rest : Weekdays) : Nat := (List.range 7).countP fun w => !rest.has w

/-- The days-between term in the two parts of R139: whole weeks, and a short tail taken from the first day
on. -/
def daysBetween (c : DayClock) (rest : Weekdays) (s : Nat) : Nat :=
  let n := c.day - 1 - s
  n / 7 * workdays rest + countDays c rest (s + 1) (n % 7)

/-- The today term (R138). -/
def todayTerm (c : DayClock) (rest : Weekdays) (lastDay : Option Nat) : Nat :=
  if expectedDay c rest c.day ∧ c.deadline ≤ c.minute ∧ lastDay ≠ some c.day then 1 else 0

/-- The missed-strip count of a lane (R138). -/
def missedStrips (c : DayClock) (lane : Lane) : Nat :=
  min (daysBetween c lane.restMask (lane.lastDay.getD lane.createdDay) +
    todayTerm c lane.restMask lane.lastDay) 255

end Sys2Proof.Machine
end

