-- ==== Sys2Proof/Machine/Sweeps.lean ====
section
/-! DEFINITION. The Sweep Engine (chapter 8): the requests that start, cancel and read a sweep, and the three
kinds of step, which are the engine's own events (R145). -/
namespace Sys2Proof.Machine

/-- Whether a sweep is running. -/
def Engine.isRunning : Engine → Bool
  | .idle => false
  | .running _ => true

/-! ### Requests (R147, R148, R151, R154 to R156) -/

/-- The state with a sweep started at place 0 (R145, R147). -/
def State.startSweep (s : State) (kind : SweepKind) : State :=
  s.withSweeps { s.sweeps with engine := .running (Sweep.start kind .request) }

/-- START PERIOD CLOSE at the Sweep Engine (R148). -/
def startPeriodCloseBlock (s : State) : Taken :=
  if s.sweeps.engine.isRunning then answer s .sweepBusy
  else
    let period := (s.sweeps.periodNumber + 1) % 65536
    answerDone ((s.withSweeps { s.sweeps with periodNumber := period }).startSweep .periodClose) (.periodStarted period)

/-- START PERIOD CLOSE (R148). -/
def execStartPeriodClose (s : State) : Host.Outcome State Fault Refusal :=
  serve .supervision .startPeriodClose startPeriodCloseBlock s

/-- START ROLLOUT at the Sweep Engine, its checks in order (R151, R45). -/
def startRolloutBlock (lot : Nat) (s : State) : Taken :=
  if lot = 0 then answer s .malformed
  else if s.sweeps.engine.isRunning then answer s .sweepBusy
  else
    match Table.find lot s.lots.entries with
    | none => answer s .noLot
    | some e =>
      if e.state ≠ .announced then answer s .wrongState
      else
        answerDone ((s.withLots (setLotState lot .rolling s.lots.entries)).startSweep (.rollout lot))
          (.rolloutStarted lot e.type (lotInState e.type .current s.lots.entries))

/-- START ROLLOUT (R151). -/
def execStartRollout (lot : Nat) (s : State) : Host.Outcome State Fault Refusal :=
  serve .supervision (.startRollout lot) (startRolloutBlock lot) s

/-- START OVERDUE at the Sweep Engine (R154). -/
def startOverdueBlock (s : State) : Taken :=
  if s.sweeps.engine.isRunning then answer s .sweepBusy
  else answerDone (s.startSweep .overdue) (.overdueStarted s.clock.day s.clock.minute)

/-- START OVERDUE (R154). -/
def execStartOverdue (s : State) : Host.Outcome State Fault Refusal :=
  serve .supervision .startOverdue startOverdueBlock s

/-- CANCEL SWEEP at the Sweep Engine: only a rollout can be cancelled (R155). -/
def cancelSweepBlock (s : State) : Taken :=
  match s.sweeps.engine with
  | .idle => answer s .wrongState
  | .running w =>
    match w.kind with
    | .periodClose | .overdue => answer s .wrongState
    | .rollout lot => answerDone (s.endSweep .cancelled w) (.rolloutCancelled lot w.cursor w.steps)

/-- CANCEL SWEEP (R155). -/
def execCancelSweep (s : State) : Host.Outcome State Fault Refusal :=
  serve .supervision .cancelSweep cancelSweepBlock s

/-- SWEEP STATUS at the Sweep Engine: the values as they stand, and the sweep-done flag cleared (R156). -/
def sweepStatusBlock (s : State) : Taken :=
  answerDone (s.withSweeps { s.sweeps with sweepDone := false }) (.sweepStatus s.sweeps)

/-- SWEEP STATUS (R156). -/
def execSweepStatus (s : State) : Host.Outcome State Fault Refusal :=
  serve .supervision .sweepStatus sweepStatusBlock s

/-! ### Steps (R145, R149, R152, R140) -/

/-- A step of one kind of sweep: taken while such a sweep is running, READY is high and RESET released;
otherwise the engine takes no such step (R145, R159, R182). `act` has no value for the other kinds. -/
def onSweep (act : Sweep → Option (Host.Outcome State Fault Refusal)) (s : State) :
    Host.Outcome State Fault Refusal :=
  match s.sweeps.engine with
  | .idle => .next s
  | .running w => if s.awake then (act w).getD (.next s) else .next s

/-- A lane whose period tag is behind, closed: its counters become the summary (R149). -/
def closeLane (period : Nat) (l : Lane) : Lane :=
  { l with summary := l.counters, periodTag := period, counters := ⟨0, 0, 0, 0, 0, 0, 0, 0⟩ }

/-- The work of a period close step at a place, and whether it closed a lane (R149). -/
def periodCloseAt (n : Nat) (s : State) : State × Bool :=
  match s.lane n with
  | none => (s, false)
  | some l =>
    if l.periodTag = s.sweeps.periodNumber then (s, false)
    else (s.putLane n (closeLane s.sweeps.periodNumber l), true)

/-- PERIOD_CLOSE_STEP (R149, R145). -/
def execPeriodCloseStep (s : State) : Host.Outcome State Fault Refusal :=
  onSweep (s := s) fun w =>
    match w.kind with
    | .periodClose => some (.next ((periodCloseAt w.cursor s).1.advance w (periodCloseAt w.cursor s).2))
    | .rollout _ | .overdue => none

/-- The work of a rollout step at a place, and whether it assigned the lot (R152). -/
def rolloutAt (lot : Nat) (type : ProcessType) (n : Nat) (s : State) : State × Bool :=
  match s.lane n with
  | none => (s, false)
  | some l =>
    if l.type ≠ type ∨ l.activeLot = lot ∨ l.pendingLot = some lot then (s, false)
    else
      ((s.withLots (addUser lot (dropUser? l.pendingLot s.lots.entries))).putLane n { l with pendingLot := some lot },
        true)

/-- ROLLOUT_STEP (R152, R145). -/
def execRolloutStep (s : State) : Host.Outcome State Fault Refusal :=
  onSweep (s := s) fun w =>
    match w.kind with
    | .rollout lot =>
      match Table.find lot s.lots.entries with
      | none => some (.fault .namedLotMissing)
      | some e => some (.next ((rolloutAt lot e.type w.cursor s).1.advance w (rolloutAt lot e.type w.cursor s).2))
    | .periodClose | .overdue => none

/-- The work of an overdue step at a place, and whether it set the OVERDUE mark (R140). -/
def overdueAt (n : Nat) (s : State) : Except Fault (State × Bool) :=
  match s.lane n with
  | none => .ok (s, false)
  | some l =>
    if l.state = .held then .ok (s, false)
    else
      match (s.policies.get l.type).policy with
      | none => .error .lanePolicyUndefined
      | some pol =>
        if l.overdue ∨ missedStrips s.clock l < pol.overdueLimit then .ok (s, false)
        else
          .ok ((s.putLane n { l with
              overdue := true
              counters := { l.counters with overdueRaises := saturate 255 l.counters.overdueRaises } }).raise
            pol.noticeMask n .overdue, true)

/-- OVERDUE_STEP (R140, R145, R154). -/
def execOverdueStep (s : State) : Host.Outcome State Fault Refusal :=
  onSweep (s := s) fun w =>
    match w.kind with
    | .overdue =>
      match overdueAt w.cursor s with
      | .ok (t, worked) => some (.next (t.advance w worked))
      | .error f => some (.fault f)
    | .periodClose | .rollout _ => none

end Sys2Proof.Machine
end

