-- ==== Sys2Proof/Machine/BringUp.lean ====
section
/-! DEFINITION. STATUS and IDENTIFY (R180, R181), power-on clearing (R182, R183) and the warm reset (R184,
R185, R159, R170). -/
namespace Sys2Proof.Machine

/-- The values STATUS returns (R180). -/
def statusOf (s : State) : StatusRecord where
  line := s.lines.supervisorEnable
  clock := s.clock
  engine := s.sweeps.engine
  sweepDone := s.sweeps.sweepDone
  pendingOverdue := s.sweeps.pendingOverdue
  intakeDepth := s.queues.intake.length
  verdictDepth := s.queues.verdicts.length
  listLength := s.attention.length
  occupiedLanes := s.store.occupiedLanes
  sites := s.store.siteCount
  lots := s.lots.count
  resetCause := s.status.resetCause
  brokeIntoSweep := s.status.brokeIntoSweep

/-- STATUS (R180). -/
def execStatus (line : Level) (s : State) : Host.Outcome State Fault Refusal :=
  serve .supervision .status (fun s => answerDone s (.status (statusOf s))) (s.drive line)

/-- IDENTIFY (R181). -/
def execIdentify (s : State) : Host.Outcome State Fault Refusal :=
  serve .supervision .identify (fun s => answerDone s .identity) s

/-- POWER_ON (R182): READY goes low and the store is cleared. The levels of the two input lines are the
board's and stay, and so do the waiting commands (log entry 9). -/
def execPowerOn (s : State) : Host.Outcome State Fault Refusal :=
  .next { State.reset with
    pending := s.pending
    lines := { s.lines with ready := false } }

/-- CLEARING_END (R183): READY rises, and every block stands at its power-on values. Clearing ends once: with
READY high there is none to end (log entry 5). -/
def execClearingEnd (s : State) : Host.Outcome State Fault Refusal :=
  if s.lines.ready then .next s
  else
    .next { State.reset with
      pending := s.pending
      lines := { s.lines with ready := true }
      ports := ⟨⟨.idle, s.ports.strip.shifted⟩, ⟨.idle, s.ports.supervision.shifted⟩⟩ }

/-- What a warm reset makes of a running sweep: a period close is kept, a rollout broken, an overdue sweep
abandoned (R159). -/
def State.breakSweep (s : State) : State :=
  match s.sweeps.engine with
  | .idle => s
  | .running w =>
    match w.kind with
    | .periodClose => s
    | .rollout _ => s.endSweep .broken w
    | .overdue => s.endSweep .abandoned w

/-- WARM_RESET: the event in which RESET is asserted (R184, R185, R159, R170). The line that is already
asserted is not asserted again (log entry 10). -/
def execWarmReset (s : State) : Host.Outcome State Fault Refusal :=
  if s.lines.resetAsserted then .next s
  else
    let t := s.breakSweep
    .next { t with
      lines := { s.lines with resetAsserted := true }
      ports := ⟨⟨.idle, s.ports.strip.shifted⟩, ⟨.idle, s.ports.supervision.shifted⟩⟩
      queues := ⟨[], [], 0⟩
      sweeps := { t.sweeps with pendingOverdue := false, sweepDone := false }
      attention := { t.attention with pulsesOwed := 0, pulseInProgress := false }
      status := ⟨.resetLine, s.sweeps.engine.isRunning⟩ }

/-- RESET_RELEASE (R184): the line is released. -/
def execResetRelease (s : State) : Host.Outcome State Fault Refusal :=
  .next { s with lines := { s.lines with resetAsserted := false } }

end Sys2Proof.Machine
end

