-- ==== Sys2Proof/Machine/Clock.lean ====
section
/-! DEFINITION. The Day Clock (chapter 7): the MINUTE TICK line and the clock requests. -/
namespace Sys2Proof.Machine

/-- The clock one minute on (R130). -/
def DayClock.advanced (c : DayClock) : DayClock :=
  if c.minute < Config.lastMinute then { c with minute := c.minute + 1 }
  else { c with minute := 0, day := c.day + 1 }

/-- The last moment of the clock (R131). -/
def DayClock.atLastMoment (c : DayClock) : Bool :=
  decide (c.day = Config.lastDay) && decide (c.minute = Config.lastMinute)

/-- One event on the MINUTE TICK line: ignored as R133 lists; at the last moment the clock stops (R131);
otherwise the clock advances (R130), and when the minute is now the deadline an overdue sweep is asked for
(R132). -/
def State.tick (s : State) : State :=
  if !s.awake || !s.clock.running then s
  else if s.clock.atLastMoment then s.withClock { s.clock with running := false }
  else
    let c := s.clock.advanced
    if c.minute = c.deadline then (s.withClock c).askOverdue else s.withClock c

/-- MINUTE_TICK (R130, R133). The four tick rows are one line event, and what a tick does is decided by the
clock it meets (DESIGN CHOICE, log entry 4). -/
def execMinuteTick (s : State) : Host.Outcome State Fault Refusal := .next s.tick

/-- DAY_ROLLOVER: the tick that finds the clock at minute 1439 (R130; log entry 4). -/
def execDayRollover (s : State) : Host.Outcome State Fault Refusal := .next s.tick

/-- CLOCK_LAST_MOMENT_STOP: the tick that finds the clock at its last moment (R131; log entry 4). -/
def execClockLastMomentStop (s : State) : Host.Outcome State Fault Refusal := .next s.tick

/-- DEADLINE_TICK: the tick that makes the minute equal to the deadline (R132; log entry 4). -/
def execDeadlineTick (s : State) : Host.Outcome State Fault Refusal := .next s.tick

/-- The clock written by a request, and the DONE reply with it. R134 has SET CLOCK answered as READ CLOCK gives the
clock; R135 and R136 say only "the clock as it then stands", and START CLOCK, STOP CLOCK and SET DEADLINE are answered
with the same values, the weekday among them (DEDUCED, log entry 22). -/
def writeClock (c : DayClock) (s : State) : Taken := answerDone (s.withClock c) (.clock c)

/-- SET CLOCK at the Day Clock (R134). -/
def setClockBlock (day minute weekdayBase : Nat) (s : State) : Taken :=
  if s.clock.running then answer s .clockRunning
  else
    writeClock { s.clock with
      day := day
      minute := min minute Config.lastMinute
      weekdayBase := min weekdayBase 6 } s

/-- SET CLOCK (R134). -/
def execSetClock (day minute weekdayBase : Nat) (s : State) : Host.Outcome State Fault Refusal :=
  serve .supervision (.setClock day minute weekdayBase) (setClockBlock day minute weekdayBase) s

/-- START CLOCK (R135). -/
def execStartClock (s : State) : Host.Outcome State Fault Refusal :=
  serve .supervision .startClock (fun s => writeClock { s.clock with running := true } s) s

/-- STOP CLOCK (R135). -/
def execStopClock (s : State) : Host.Outcome State Fault Refusal :=
  serve .supervision .stopClock (fun s => writeClock { s.clock with running := false } s) s

/-- READ CLOCK (R137). -/
def execReadClock (s : State) : Host.Outcome State Fault Refusal :=
  serve .supervision .readClock (fun s => answerDone s (.clock s.clock)) s

/-- SET DEADLINE (R136). -/
def execSetDeadline (minute : Nat) (s : State) : Host.Outcome State Fault Refusal :=
  serve .supervision (.setDeadline minute)
    (fun s => writeClock { s.clock with deadline := min minute Config.lastMinute } s) s

end Sys2Proof.Machine
end

