-- ==== Sys2Proof/Machine/Bytes.lean ====
section
/-! DEFINITION. Values as bytes, most significant byte first, signed values in two's complement (R186). Table 11-5
gives the sets and flags their bits and says nothing, of a reply, about the bits of a byte that stand for nothing:
the part sends them 0 (DESIGN CHOICE, log entry 20). -/
namespace Sys2Proof.Machine

/-- A value of one byte. -/
def byte1 (n : Nat) : List Byte := [BitVec.ofNat 8 n]

/-- A value of two bytes. -/
def byte2 (n : Nat) : List Byte := [BitVec.ofNat 8 (n / 256), BitVec.ofNat 8 n]

/-- A value of three bytes. -/
def byte3 (n : Nat) : List Byte := [BitVec.ofNat 8 (n / 65536), BitVec.ofNat 8 (n / 256), BitVec.ofNat 8 n]

/-- A signed value of one byte. -/
def signed1 (i : Int) : List Byte := byte1 (i % 256).toNat

/-- A signed value of two bytes. -/
def signed2 (i : Int) : List Byte := byte2 (i % 65536).toNat

/-- A flag or indication: 1 when set and 0 when clear (R188). -/
def flag (b : Bool) : List Byte := byte1 b.toNat

/-- Bits as a number, the first of the list as bit 0. -/
def bitsNat : List Bool → Nat
  | [] => 0
  | b :: rest => b.toNat + 2 * bitsNat rest

/-- The value of byte `i` of a frame. -/
def read1 (bytes : List Byte) (i : Nat) : Nat := (bytes.getD i 0).toNat

/-- The two-byte value at byte `i` of a frame. -/
def read2 (bytes : List Byte) (i : Nat) : Nat := 256 * read1 bytes i + read1 bytes (i + 1)

/-- The three-byte value at byte `i` of a frame. -/
def read3 (bytes : List Byte) (i : Nat) : Nat := 256 * read2 bytes i + read1 bytes (i + 2)

/-- The signed two-byte value at byte `i` of a frame. -/
def readSigned2 (bytes : List Byte) (i : Nat) : Int :=
  if read2 bytes i < 32768 then read2 bytes i else (read2 bytes i : Int) - 65536

/-- The signed one-byte value at byte `i` of a record. -/
def readSigned1 (bytes : List Byte) (i : Nat) : Int :=
  if read1 bytes i < 128 then read1 bytes i else (read1 bytes i : Int) - 256

/-- The place of a point in plot-point order, 0 for R-FOG to 11 for B-DMAX (Table 11-5). -/
def pointIndex (p : Point) : Nat :=
  (match p.channel with | .r => 0 | .g => 4 | .b => 8) +
    (match p.quantity with | .fog => 0 | .speed => 1 | .contrast => 2 | .dmax => 3)

/-- Twelve values read from places 0 to 11, in patch order. -/
def patchesOf {α : Type} (f : Nat → α) : Patches α :=
  ⟨⟨f 0, f 1, f 2, f 3⟩, ⟨f 4, f 5, f 6, f 7⟩, ⟨f 8, f 9, f 10, f 11⟩⟩

/-- A set of causes as its byte: WATCH bit 0 to LOT REFUSED bit 6 (Table 11-5). Bit 7, which is no cause, is sent 0
(DESIGN CHOICE, log entry 20). -/
def causesNat (m : Causes) : Nat :=
  bitsNat [m.watch, m.drift, m.action, m.cleared, m.overdue, m.crossover, m.lotRefused]

/-- The set of causes of a byte; bit 7 is no cause (log entry 13). -/
def causesOf (n : Nat) : Causes :=
  ⟨n.testBit 0, n.testBit 1, n.testBit 2, n.testBit 3, n.testBit 4, n.testBit 5, n.testBit 6⟩

/-- A rest mask as its byte: Monday bit 0 to Sunday bit 6 (R186). Bit 7, not examined in a request, is sent 0 in a
reply (DESIGN CHOICE, log entry 20). -/
def weekdaysNat (m : Weekdays) : Nat :=
  bitsNat [m.monday, m.tuesday, m.wednesday, m.thursday, m.friday, m.saturday, m.sunday]

/-- The rest mask of a byte; bit 7 is not examined (R186). -/
def weekdaysOf (n : Nat) : Weekdays :=
  ⟨n.testBit 0, n.testBit 1, n.testBit 2, n.testBit 3, n.testBit 4, n.testBit 5, n.testBit 6⟩

/-- Twelve flags as a two-byte value, bit n for point n (Tables 11-3 and 11-7). Bits 12 to 15, which stand for no
point, are sent 0 in a reply (DESIGN CHOICE, log entry 20). -/
def pointBits (x : Points Bool) : List Byte := byte2 (bitsNat x.toList)

/-- Twelve flags as a two-byte value, bit n for patch n (Table 11-5). Bits 12 to 15, which stand for no patch, are
sent 0 (DESIGN CHOICE, log entry 20). -/
def patchBits (x : Patches Bool) : List Byte := byte2 (bitsNat (Patches.toList x))

/-- A policy body (Table 11-3). -/
def policyBytes (p : Policy) : List Byte :=
  pointBits p.used ++
  p.limits.toList.flatMap (fun l =>
    signed2 l.actionLow ++ signed2 l.warnLow ++ signed2 l.warnHigh ++ signed2 l.actionHigh) ++
  p.driftThreshold.toList.flatMap byte2 ++
  byte1 p.filterShift ++ byte1 p.deadband ++ byte1 p.runLength ++ byte1 p.settleCount ++
  byte1 p.clearCount ++ byte1 p.overdueLimit ++ byte1 (causesNat p.noticeMask)

end Sys2Proof.Machine
end

