-- ==== Sys2Proof/Machine/Layouts.lean ====
section
/-! DEFINITION. Replies as bytes (section 11.2 and 11.3): the reply a READ frame shifts out. -/
namespace Sys2Proof.Machine

/-! ### Encoded values (Table 11-5) -/

def LaneState.code : LaneState → Nat
  | .settling => 0
  | .steady => 1
  | .watch => 2
  | .drift => 3
  | .action => 4
  | .held => 5

def LotState.code : LotState → Nat
  | .announced => 0
  | .rolling => 1
  | .current => 2
  | .superseded => 3

def Zone.code : Zone → Nat
  | .actionLow => 0
  | .warnLow => 1
  | .centre => 2
  | .warnHigh => 3
  | .actionHigh => 4

def ReadingOutcome.code : ReadingOutcome → Nat
  | .clean => 0
  | .warn => 1
  | .trend => 2
  | .limit => 3

def Crossover.code : Crossover → Nat
  | .none => 0
  | .pending => 1
  | .auto => 2

def Reason.code : Reason → Nat
  | .noLane => 1
  | .held => 2
  | .stale => 3
  | .ahead => 4
  | .rerunLimit => 5
  | .lotMismatch => 6
  | .lotUnknown => 7
  | .noData => 8

/-- The lot resolution case of a PROVE reply, 1 to 5 (R84, R188). -/
def LotCase.code : LotCase → Nat
  | .active => 1
  | .pending => 2
  | .auto => 3
  | .mismatch => 4
  | .unknown => 5

def SweepKind.code : SweepKind → Nat
  | .periodClose => 0
  | .rollout _ => 1
  | .overdue => 2

/-- The rolling or rolled lot; 0 means none (R187). -/
def SweepKind.lot : SweepKind → Nat
  | .rollout n => n
  | .periodClose | .overdue => 0

def Origin.code : Origin → Nat
  | .request => 0
  | .deadline => 1

def Ending.code : Ending → Nat
  | .completed => 0
  | .cancelled => 1
  | .broken => 2
  | .abandoned => 3

def SlotOutcome.code : SlotOutcome → Nat
  | .empty => 0
  | .skippedLocked => 1
  | .retired => 2

def AttnMode.code : AttnMode → Nat
  | .level => 0
  | .pulse => 1

def ResetCause.code : ResetCause → Nat
  | .powerOn => 0
  | .resetLine => 1

def Engine.code : Engine → Nat
  | .idle => 0
  | .running _ => 1

def levelCode : Level → Nat
  | .inactive => 0
  | .active => 1

/-- Table 11-4. -/
def ReplyCode.code : ReplyCode → Nat
  | .none => 0x02
  | .listEmpty => 0x03
  | .queueFull => 0x04
  | .malformed => 0x10
  | .notReady => 0x11
  | .noLane => 0x12
  | .laneExists => 0x13
  | .poolFull => 0x14
  | .directoryFull => 0x15
  | .noPolicy => 0x16
  | .noCurrentLot => 0x17
  | .locked => 0x18
  | .supervisorRequired => 0x19
  | .inUse => 0x1A
  | .lotExists => 0x1B
  | .lotTableFull => 0x1C
  | .noLot => 0x1D
  | .lotInUse => 0x1E
  | .wrongState => 0x1F
  | .clockRunning => 0x20
  | .sweepBusy => 0x21

/-- The mark bits: LOCKED 0, AUTO-CROSS 1, AUTO-CLEAR 2, OVERDUE 3 (Table 11-5). Bits 4 to 7 are sent 0 (DESIGN
CHOICE, log entry 20). -/
def marksNat (locked autoCross autoClear overdue : Bool) : Nat := bitsNat [locked, autoCross, autoClear, overdue]

def Lane.marks (l : Lane) : Nat := marksNat l.locked l.autoCross l.autoClear l.overdue

/-! ### Records (R189) -/

/-- The nine bytes of eight counters (Table 11-7, bytes 111 to 119). -/
def counterBytes (c : Counters) : List Byte :=
  byte2 c.readings ++ byte1 c.warns ++ byte1 c.driftEntries ++ byte1 c.actionEntries ++ byte1 c.reruns ++
    byte1 c.refusals ++ byte1 c.overdueRaises ++ byte1 c.crossovers

/-- A last deviation; 8000h when absent (R189). -/
def deviationBytes (d : Option Int) : List Byte :=
  match d with
  | none => byte2 0x8000
  | some d => signed2 d

/-- The lane record reply (Table 11-7). -/
def laneBytes (number : Nat) (l : Lane) : List Byte :=
  byte2 number ++ byte2 l.store ++ byte1 l.slot ++ byte1 l.type ++
  byte1 l.state.code ++ byte1 l.settleProgress ++ byte1 l.cleanProgress ++
  byte3 l.activeLot ++ byte3 (l.pendingLot.getD 0) ++
  l.offsets.toList.flatMap signed2 ++
  l.trend.toList.flatMap (fun t => signed2 t.value) ++
  pointBits (Points.ofFn fun p => (l.trend.pick p).seeded) ++
  l.runCount.toList.flatMap signed1 ++
  l.lastDeviation.toList.flatMap deviationBytes ++
  byte2 l.createdDay ++ byte2 (l.lastDay.getD 0) ++ flag l.lastDay.isSome ++
  byte1 l.rerunsToday ++ byte1 (weekdaysNat l.restMask) ++ byte1 l.marks ++ byte1 (causesNat l.causes) ++
  flag l.joined.isSome ++
  counterBytes l.counters ++ counterBytes l.summary ++ byte2 l.periodTag

/-- A point entry of a verdict (Table 11-6). Bits 2 to 7 of its marks are sent 0 (DESIGN CHOICE, log entry 20). -/
def entryBytes (e : Point × PointResult) : List Byte :=
  byte1 (pointIndex e.1) ++ byte1 e.2.zone.code ++ signed2 e.2.deviation ++ signed2 e.2.trend ++
    signed1 e.2.runCount ++ byte1 (bitsNat [e.2.gross, e.2.clipped])

/-- The verdict record (Table 11-6). Bits 2 to 7 of its presence byte are sent 0 (DESIGN CHOICE, log entry 20). -/
def verdictBytes (v : Verdict) : List Byte :=
  let common (kind : Nat) :=
    byte1 (v.ticket.getD 0) ++ byte1 (bitsNat [v.lane.isSome, v.ticket.isSome]) ++ byte2 v.store ++
      byte1 v.slot ++ byte2 (v.lane.getD 0) ++ byte1 kind ++ patchBits v.clipped
  match v.body with
  | .refused reason => common reason.code
  | .evaluated outcome after crossover entries =>
    common 0 ++ byte1 outcome.code ++ byte1 after.code ++ byte1 crossover.code ++ byte1 entries.length ++
      entries.flatMap entryBytes

/-- The notice record (Table 11-8). -/
def noticeBytes (n : Notice) : List Byte :=
  byte2 n.lane ++ byte2 n.store ++ byte1 n.slot ++ byte1 (causesNat n.causes) ++ byte1 n.state.code ++
    byte1 (marksNat n.locked n.autoCross n.autoClear n.overdue) ++ byte2 n.stamp.day ++ byte2 n.stamp.minute

/-- A lot entry, in the order R51 lists it (R188), in READ LOT's reply and in ANNOUNCE LOT's (log entry 12). -/
def lotBytes (number : Nat) (l : Lot) : List Byte :=
  byte3 number ++ byte1 l.type ++ byte1 l.state.code ++ l.references.toList.flatMap byte2 ++ byte2 l.users ++
    byte2 l.announcedDay

/-- The clock as READ CLOCK gives it (R137), in every reply that carries the clock (R134; log entry 22 for R135 and
R136). -/
def clockBytes (c : DayClock) : List Byte :=
  byte2 c.day ++ byte2 c.minute ++ byte1 c.weekdayBase ++ byte1 ((c.day + c.weekdayBase) % 7) ++ flag c.running ++
    byte2 c.deadline

/-- Kind, origin, cursor, step count and rolling lot of a running sweep, every byte 0 when IDLE (R188). -/
def engineBytes (e : Engine) : List Byte :=
  match e with
  | .idle => byte1 0 ++ byte1 0 ++ byte2 0 ++ byte2 0 ++ byte3 0
  | .running w => byte1 w.kind.code ++ byte1 w.origin.code ++ byte2 w.cursor ++ byte2 w.steps ++ byte3 w.kind.lot

/-- The last-sweep record; NONE is kind FFh and 0 elsewhere (Table 11-5). -/
def lastSweepBytes (r : Option LastSweep) : List Byte :=
  match r with
  | none => byte1 0xFF ++ byte1 0 ++ byte1 0 ++ byte2 0 ++ byte2 0 ++ byte3 0
  | some r =>
    byte1 r.kind.code ++ byte1 r.origin.code ++ byte1 r.ending.code ++ byte2 r.cursor ++ byte2 r.steps ++
      byte3 r.kind.lot

/-- Kind and cursor of STATUS, 0 when IDLE (R180, R188). -/
def engineSummaryBytes (e : Engine) : List Byte :=
  match e with
  | .idle => byte1 0 ++ byte2 0
  | .running w => byte1 w.kind.code ++ byte2 w.cursor

/-- The values of STATUS in the order of R180. -/
def statusBytes (r : StatusRecord) : List Byte :=
  flag true ++ byte1 (levelCode r.line) ++ byte2 r.clock.day ++ byte2 r.clock.minute ++ flag r.clock.running ++
    byte2 r.clock.deadline ++ byte1 r.engine.code ++ engineSummaryBytes r.engine ++ flag r.sweepDone ++
    flag r.pendingOverdue ++ byte1 r.intakeDepth ++ byte1 r.verdictDepth ++ byte2 r.listLength ++
    byte2 r.occupiedLanes ++ byte2 r.sites ++ byte1 r.lots ++ byte1 r.resetCause.code ++ flag r.brokeIntoSweep

/-- The values of IDENTIFY in the order of R181. -/
def identityBytes : List Byte :=
  byte2 Config.vendorCode ++ byte2 Config.partCode ++ byte1 Config.revision ++ byte2 Config.poolPlaces ++
    byte2 Config.siteCapacity ++ byte2 Config.lotCapacity ++ byte2 Config.processTypes ++
    byte2 Config.intakeCapacity ++ byte2 Config.verdictCapacity

/-- A DONE body: the values its request's rule lists, in that order (R188; log entries 11 and 12). -/
def doneBytes : DoneBody → List Byte
  | .laneRecord n l => laneBytes n l
  | .laneMarks n l => byte2 n ++ byte2 l.store ++ byte1 l.slot ++ byte1 l.marks
  | .laneMoved n l before =>
    byte2 n ++ byte2 l.store ++ byte1 l.slot ++ byte1 before.code ++ byte1 l.state.code ++ byte1 l.marks
  | .laneRetired n store slot removed => byte2 n ++ byte2 store ++ byte1 slot ++ flag removed
  | .siteRetired store o =>
    byte2 store ++ byte1 o.s0.code ++ byte1 o.s1.code ++ byte1 o.s2.code ++ byte1 o.s3.code
  | .policyStored t p count adj => byte1 t ++ policyBytes p ++ byte2 count ++ flag adj
  | .policyUndefined t => byte1 t ++ List.replicate 129 0 ++ byte2 0 ++ flag false
  | .policyRead t p count => byte1 t ++ policyBytes p ++ byte2 count
  | .lotAnnounced n l clipped => lotBytes n l ++ flag clipped
  | .lotRead n l => lotBytes n l
  | .lotDeleted n t => byte3 n ++ byte1 t
  | .collected v remaining => byte1 remaining ++ verdictBytes v
  | .proved c trial v =>
    (match c with
      | none => byte1 0
      | some c => byte1 c.code) ++
    (match trial with
      | none => byte1 0xFF ++ byte1 0 ++ byte1 0
      | some (st, settle, clean) => byte1 st.code ++ byte1 settle ++ byte1 clean) ++
    verdictBytes v
  | .clock c => clockBytes c
  | .periodStarted n => byte2 n
  | .rolloutStarted lot t current => byte3 lot ++ byte1 t ++ byte3 (current.getD 0)
  | .overdueStarted day minute => byte2 day ++ byte2 minute
  | .rolloutCancelled lot cursor steps => byte3 lot ++ byte2 cursor ++ byte2 steps
  | .sweepStatus e =>
    byte1 e.engine.code ++ engineBytes e.engine ++ flag e.pendingOverdue ++ byte2 e.periodNumber ++
      flag e.sweepDone ++ lastSweepBytes e.lastSweep
  | .notice n length => noticeBytes n ++ byte2 length
  | .attentionMode m => byte1 m.code
  | .status r => statusBytes r
  | .identity => identityBytes

/-- A reply with a code and a body: code, two-byte body length, body (R188). -/
def withLength (code : Nat) (body : List Byte) : List Byte := byte1 code ++ byte2 body.length ++ body

/-- A reply as the framer shifts it out (R188). -/
def replyBytes : Reply → List Byte
  | .bare code => withLength code.code []
  | .accepted ticket depth => withLength 0x01 (byte1 ticket ++ byte1 depth)
  | .done body => withLength 0x00 (doneBytes body)

end Sys2Proof.Machine
end

