-- ==== Sys2Proof/Machine/RequestFrames.lean ====
section
/-! DEFINITION. Request frames (section 11.1): the checks the framer makes when a frame ends and the request
it then hands on (R174, R187), and, from the same tables, the frame that carries a request. -/
namespace Sys2Proof.Machine

/-- A row of Table 11-1: the port, the fixed body length without and with ALTERNATE FORM, and the presence
flags the kind uses, by bit number. -/
structure FrameForm where
  port : Port
  fixed : Nat
  alternate : Nat
  flags : List Nat
  deriving DecidableEq, Repr

/-- The presence flag bits of R186. -/
def nameByNumberBit : Nat := 0
def offsetsBit : Nat := 1
def restMaskBit : Nat := 2
def autoCrossBit : Nat := 3
def autoClearBit : Nat := 4
def startNumberBit : Nat := 5
def alternateBit : Nat := 6

/-- A Supervision Port row with one fixed length. -/
def supervisionForm (fixed : Nat) (flags : List Nat) : Option FrameForm := some ⟨.supervision, fixed, fixed, flags⟩

/-- Table 11-1, by frame kind. READ (01h) is no request frame (section 10.1). -/
def frameForm (kind : Nat) : Option FrameForm :=
  match kind with
  | 0x10 => some ⟨.strip, 32, 32, []⟩
  | 0x11 => some ⟨.strip, 0, 0, []⟩
  | 0x20 => supervisionForm 5 [offsetsBit, autoCrossBit, autoClearBit]
  | 0x21 => supervisionForm 3 [nameByNumberBit, offsetsBit, restMaskBit, autoCrossBit, autoClearBit]
  | 0x22 | 0x23 | 0x24 | 0x25 | 0x26 | 0x27 | 0x28 => supervisionForm 3 [nameByNumberBit]
  | 0x29 => supervisionForm 2 []
  | 0x2A => supervisionForm 0 [startNumberBit]
  | 0x30 => some ⟨.supervision, 130, 1, [alternateBit]⟩
  | 0x31 => supervisionForm 1 []
  | 0x38 => supervisionForm 28 []
  | 0x39 => supervisionForm 3 [alternateBit]
  | 0x3A => supervisionForm 3 []
  | 0x3C => supervisionForm 32 []
  | 0x40 => supervisionForm 5 []
  | 0x41 | 0x42 | 0x43 => supervisionForm 0 []
  | 0x44 => supervisionForm 2 []
  | 0x48 => supervisionForm 0 []
  | 0x49 => supervisionForm 3 []
  | 0x4A | 0x4B | 0x4C => supervisionForm 0 []
  | 0x50 => supervisionForm 0 []
  | 0x51 => supervisionForm 1 []
  | 0x58 | 0x59 => supervisionForm 0 []
  | _ => none

/-- The length of the optional part a flag marks (Table 11-1). -/
def optionalLength (bit : Nat) : Nat :=
  if bit = offsetsBit then 24
  else if bit = restMaskBit ∨ bit = autoCrossBit ∨ bit = autoClearBit then 1
  else if bit = startNumberBit then 2
  else 0

/-- The length of the optional parts that stand before the part of flag `bit`, in the order of the table. -/
def partsBefore (flags bit : Nat) : Nat :=
  ((List.range bit).map fun b => if flags.testBit b then optionalLength b else 0).sum

/-- Checks 2 and 3 of R187: no unused flag is set, and the length is as the flags ask. -/
def lengthOk (f : FrameForm) (flags length : Nat) : Bool :=
  ((List.range 8).all fun b => !flags.testBit b || f.flags.contains b) &&
    decide (length = 2 + (if flags.testBit alternateBit then f.alternate else f.fixed) + partsBefore flags 8)

/-! ### Reading the body -/

/-- A density of a strip report: bit 15 marks it absent; bits 12 to 14 are not examined (R187). -/
def densityOf (v : Nat) : Option Nat := if v.testBit 15 then none else some (v % 4096)

/-- A strip report (Table 11-2) whose first byte is byte 2 of the frame. -/
def readReport (bytes : List Byte) : StripReport where
  store := read2 bytes 2
  slot := read1 bytes 4
  lot := read3 bytes 5
  day := read2 bytes 8
  densities := patchesOf fun i => densityOf (read2 bytes (10 + 2 * i))

/-- A lane name (R186); the third byte is not examined in the form by number. -/
def readName (flags : Nat) (bytes : List Byte) : LaneName :=
  if flags.testBit nameByNumberBit then .byNumber (read2 bytes 2)
  else .bySlot (read2 bytes 2) (read1 bytes 4)

/-- Twelve signed values in plot-point order. -/
def readOffsets (bytes : List Byte) (i : Nat) : Points Int :=
  Points.ofFn fun p => readSigned2 bytes (i + 2 * pointIndex p)

/-- A choice byte (R186), when it is 0 or 1 (R187, check 4). -/
def readChoice (bytes : List Byte) (i : Nat) : Option Bool :=
  match read1 bytes i with
  | 0 => some false
  | 1 => some true
  | _ => none

/-- An optional part at byte `i`, read when its flag is set; `none` when the part itself is bad. -/
def readOptional {α : Type} (flags bit i : Nat) (read : Nat → Option α) : Option (Option α) :=
  if flags.testBit bit then (read i).map some else some none

/-- A policy body (Table 11-3) whose first byte is byte 3 of the frame. -/
def readPolicyBody (bytes : List Byte) : Policy where
  used := Points.ofFn fun p => (256 * read1 bytes 3 + read1 bytes 4).testBit (pointIndex p)
  limits := Points.ofFn fun p =>
    let i := 5 + 8 * pointIndex p
    ⟨readSigned2 bytes i, readSigned2 bytes (i + 2), readSigned2 bytes (i + 4), readSigned2 bytes (i + 6)⟩
  driftThreshold := Points.ofFn fun p => read2 bytes (101 + 2 * pointIndex p)
  filterShift := read1 bytes 125
  deadband := read1 bytes 126
  runLength := read1 bytes 127
  settleCount := read1 bytes 128
  clearCount := read1 bytes 129
  overdueLimit := read1 bytes 130
  noticeMask := causesOf (read1 bytes 131)

/-- The request of a frame whose kind, flags and length have passed; `none` when a choice byte is bad. -/
def readRequest (kind flags : Nat) (bytes : List Byte) : Option Request :=
  let name := readName flags bytes
  let part {α : Type} (fixed bit : Nat) (read : Nat → Option α) : Option (Option α) :=
    readOptional flags bit (2 + fixed + partsBefore flags bit) read
  let offsetsPart (fixed : Nat) := part fixed offsetsBit fun i => some (readOffsets bytes i)
  match kind with
  | 0x10 => some (.submit (readReport bytes))
  | 0x11 => some .collect
  | 0x20 =>
    (offsetsPart 5).bind fun offsets =>
      (part 5 autoCrossBit (readChoice bytes)).bind fun cross =>
        (part 5 autoClearBit (readChoice bytes)).map fun clear =>
          .createLane ⟨read2 bytes 2, read1 bytes 4, read1 bytes 5, weekdaysOf (read1 bytes 6), offsets, cross, clear⟩
  | 0x21 =>
    (offsetsPart 3).bind fun offsets =>
      (part 3 restMaskBit fun i => some (weekdaysOf (read1 bytes i))).bind fun mask =>
        (part 3 autoCrossBit (readChoice bytes)).bind fun cross =>
          (part 3 autoClearBit (readChoice bytes)).map fun clear => .editLane name ⟨offsets, mask, cross, clear⟩
  | 0x22 => some (.retireLane name)
  | 0x23 => some (.lookupLane name)
  | 0x24 => some (.lockLane name)
  | 0x25 => some (.unlockLane name)
  | 0x26 => some (.holdLane name)
  | 0x27 => some (.releaseLane name)
  | 0x28 => some (.requalifyLane name)
  | 0x29 => some (.retireSite (read2 bytes 2))
  | 0x2A => some (.nextLane (if flags.testBit startNumberBit then some (read2 bytes 2) else none))
  | 0x30 =>
    if flags.testBit alternateBit then some (.setPolicyUndefine (read1 bytes 2))
    else some (.setPolicy (read1 bytes 2) (readPolicyBody bytes))
  | 0x31 => some (.readPolicy (read1 bytes 2))
  | 0x38 => some (.announceLot (read3 bytes 2) (read1 bytes 5) (patchesOf fun i => read2 bytes (6 + 2 * i)))
  | 0x39 =>
    if flags.testBit alternateBit then some (.readLotFollowing (read3 bytes 2)) else some (.readLot (read3 bytes 2))
  | 0x3A => some (.deleteLot (read3 bytes 2))
  | 0x3C => some (.prove (readReport bytes))
  | 0x40 => some (.setClock (read2 bytes 2) (read2 bytes 4) (read1 bytes 6))
  | 0x41 => some .startClock
  | 0x42 => some .stopClock
  | 0x43 => some .readClock
  | 0x44 => some (.setDeadline (read2 bytes 2))
  | 0x48 => some .startPeriodClose
  | 0x49 => some (.startRollout (read3 bytes 2))
  | 0x4A => some .startOverdue
  | 0x4B => some .cancelSweep
  | 0x4C => some .sweepStatus
  | 0x50 => some .takeNotice
  | 0x51 => some (.setAttentionMode (read1 bytes 2))
  | 0x58 => some .status
  | 0x59 => some .identify
  | _ => none

/-- The request a frame carries on a port, or `none` when it fails a check of R187. -/
def parseFrame (port : Port) (bytes : List Byte) : Option Request :=
  let kind := read1 bytes 0
  let flags := read1 bytes 1
  match frameForm kind with
  | none => none
  | some f =>
    if f.port = port ∧ lengthOk f flags bytes.length then
      (readRequest kind flags bytes).filter structureOk
    else none

/-! ### The frame of a request -/

/-- A density of a strip report as sent (R187). -/
def densityBytes (d : Option Nat) : List Byte :=
  match d with
  | none => byte2 0x8000
  | some v => byte2 v

/-- A strip report as sent (Table 11-2). -/
def reportBytes (r : StripReport) : List Byte :=
  byte2 r.store ++ byte1 r.slot ++ byte3 r.lot ++ byte2 r.day ++ r.densities.toList.flatMap densityBytes

/-- A lane name as sent (R186). -/
def nameBytes : LaneName → List Byte
  | .bySlot store slot => byte2 store ++ byte1 slot
  | .byNumber n => byte2 n ++ byte1 0

/-- Whether a lane name is of the form by number. -/
def nameIsNumber : LaneName → Bool
  | .bySlot _ _ => false
  | .byNumber _ => true

/-- An optional part as sent. -/
def optionalBytes {α : Type} (x : Option α) (send : α → List Byte) : List Byte :=
  match x with
  | none => []
  | some a => send a

/-- Twelve offsets as sent. -/
def offsetBytes (o : Points Int) : List Byte := o.toList.flatMap signed2

/-- A frame: kind, presence flags in bit order from bit 0, body (R186). -/
def frameOf (kind : Nat) (flags : List Bool) (body : List Byte) : List Byte :=
  byte1 kind ++ byte1 (bitsNat flags) ++ body

/-- The frame of a request that only names a lane. -/
def nameFrame (kind : Nat) (n : LaneName) : List Byte := frameOf kind [nameIsNumber n] (nameBytes n)

/-- The frame that carries a request (Table 11-1). -/
def requestBytes : Request → List Byte
  | .submit r => frameOf 0x10 [] (reportBytes r)
  | .collect => frameOf 0x11 [] []
  | .createLane c =>
    frameOf 0x20 [false, c.offsets.isSome, false, c.autoCross.isSome, c.autoClear.isSome]
      (byte2 c.store ++ byte1 c.slot ++ byte1 c.type ++ byte1 (weekdaysNat c.restMask) ++
        optionalBytes c.offsets offsetBytes ++ optionalBytes c.autoCross flag ++ optionalBytes c.autoClear flag)
  | .editLane n e =>
    frameOf 0x21 [nameIsNumber n, e.offsets.isSome, e.restMask.isSome, e.autoCross.isSome, e.autoClear.isSome]
      (nameBytes n ++ optionalBytes e.offsets offsetBytes ++
        optionalBytes e.restMask (fun m => byte1 (weekdaysNat m)) ++ optionalBytes e.autoCross flag ++
        optionalBytes e.autoClear flag)
  | .retireLane n => nameFrame 0x22 n
  | .lookupLane n => nameFrame 0x23 n
  | .lockLane n => nameFrame 0x24 n
  | .unlockLane n => nameFrame 0x25 n
  | .holdLane n => nameFrame 0x26 n
  | .releaseLane n => nameFrame 0x27 n
  | .requalifyLane n => nameFrame 0x28 n
  | .retireSite store => frameOf 0x29 [] (byte2 store)
  | .nextLane start =>
    frameOf 0x2A [false, false, false, false, false, start.isSome] (optionalBytes start byte2)
  | .setPolicy t b => frameOf 0x30 [] (byte1 t ++ policyBytes b)
  | .setPolicyUndefine t => frameOf 0x30 [false, false, false, false, false, false, true] (byte1 t)
  | .readPolicy t => frameOf 0x31 [] (byte1 t)
  | .announceLot lot t refs => frameOf 0x38 [] (byte3 lot ++ byte1 t ++ refs.toList.flatMap byte2)
  | .readLot lot => frameOf 0x39 [] (byte3 lot)
  | .readLotFollowing start => frameOf 0x39 [false, false, false, false, false, false, true] (byte3 start)
  | .deleteLot lot => frameOf 0x3A [] (byte3 lot)
  | .prove r => frameOf 0x3C [] (reportBytes r)
  | .setClock d m b => frameOf 0x40 [] (byte2 d ++ byte2 m ++ byte1 b)
  | .startClock => frameOf 0x41 [] []
  | .stopClock => frameOf 0x42 [] []
  | .readClock => frameOf 0x43 [] []
  | .setDeadline m => frameOf 0x44 [] (byte2 m)
  | .startPeriodClose => frameOf 0x48 [] []
  | .startRollout lot => frameOf 0x49 [] (byte3 lot)
  | .startOverdue => frameOf 0x4A [] []
  | .cancelSweep => frameOf 0x4B [] []
  | .sweepStatus => frameOf 0x4C [] []
  | .takeNotice => frameOf 0x50 [] []
  | .setAttentionMode m => frameOf 0x51 [] (byte1 m)
  | .status => frameOf 0x58 [] []
  | .identify => frameOf 0x59 [] []

end Sys2Proof.Machine
end

