-- ==== Sys2Proof/Machine/Frames.lean ====
section
/-! DEFINITION. The frames of a port (R171 to R174): REQUEST_FRAME_BEGIN, REQUEST_FRAME_END, READ_FRAME. -/
namespace Sys2Proof.Machine

/-- REQUEST_FRAME_BEGIN (R173, Table 10-2): the framer goes to TAKING, discarding a held reply unread; while
ANSWERING, and while RESET is asserted (R184), the frame is ignored to its end. -/
def execRequestFrameBegin (p : Port) (s : State) : Host.Outcome State Fault Refusal :=
  if s.lines.resetAsserted then .next s
  else
    match s.framer p with
    | .idle => .next (s.withFramer p .taking)
    | .replyHeld _ => .next (s.withFramer p .taking)
    | .answering _ => .next s
    | .taking => .fault .frameOnBusyPort

/-- REQUEST_FRAME_END (R174, R175, Table 10-2): in TAKING, a frame that fails the checks of R187 is answered
MALFORMED, and one that passes is answered NOT READY while READY is low and otherwise handed on. In every
other state the frame was ignored or dropped, and its end changes nothing; a frame of no bytes is no frame
(R172). -/
def execRequestFrameEnd (p : Port) (bytes : List Byte) (s : State) : Host.Outcome State Fault Refusal :=
  if s.lines.resetAsserted || bytes.isEmpty then .next s
  else
    match s.framer p with
    | .taking =>
      match parseFrame p bytes with
      | none => .next (s.hold p (.bare .malformed))
      | some r => if s.lines.ready then .next (s.withFramer p (.answering r)) else .next (s.hold p (.bare .notReady))
    | .idle | .answering _ | .replyHeld _ => .next s

/-- The bytes a READ frame that clocks `n` bytes shifts out: the reply's, then the no-reply byte (R172). -/
def shiftOut (reply : List Byte) (n : Nat) : List Byte :=
  reply.take n ++ List.replicate (n - reply.length) Config.noReplyByte

/-- READ_FRAME (R172, Table 10-2), at its completion: a reply read in full is discarded and the framer goes
IDLE; one read in part stays held; without a reply, or in a frame that began before the reply was held, the
no-reply byte is shifted out. A frame that RESET met is ignored (R184). -/
def execReadFrame (p : Port) (began : ReadStart) (clocked : Nat) (s : State) : Host.Outcome State Fault Refusal :=
  if s.lines.resetAsserted || began = .underReset then .next s
  else
    match s.framer p with
    | .taking => .fault .frameOnBusyPort
    | .idle => .next (s.withPort p ⟨.idle, shiftOut [] clocked⟩)
    | .answering r => .next (s.withPort p ⟨.answering r, shiftOut [] clocked⟩)
    | .replyHeld reply =>
      if began = .replyHeld then
        let bytes := replyBytes reply
        .next (s.withPort p ⟨if bytes.length ≤ clocked then .idle else .replyHeld reply, shiftOut bytes clocked⟩)
      else .next (s.withPort p ⟨.replyHeld reply, shiftOut [] clocked⟩)

end Sys2Proof.Machine
end

