-- ==== Sys2Proof/Machine/Lanes.lean ====
section
/-! DEFINITION. The Lane Store's requests (chapter 1) and the requests that move a lane's state (chapter 6). -/
namespace Sys2Proof.Machine

/-! ### CREATE LANE (R12 to R14) -/

/-- A new lane's field values (Table 1-2). -/
def newLane (c : LaneCreation) (slot : SlotNumber) (type : ProcessType) (active : Nat) (pendingLot : Option Nat)
    (day period : Nat) : Lane where
  store := c.store
  slot := slot
  type := type
  state := .settling
  settleProgress := 0
  cleanProgress := 0
  activeLot := active
  pendingLot := pendingLot
  offsets := storedOffsets (c.offsets.getD (Points.all 0))
  trend := Points.all ⟨0, false⟩
  runCount := Points.all 0
  lastDeviation := Points.all none
  createdDay := day
  lastDay := none
  rerunsToday := 0
  restMask := c.restMask
  locked := false
  autoCross := c.autoCross.getD true
  autoClear := c.autoClear.getD true
  overdue := false
  causes := .empty
  joined := none
  counters := ⟨0, 0, 0, 0, 0, 0, 0, 0⟩
  summary := ⟨0, 0, 0, 0, 0, 0, 0, 0⟩
  periodTag := period

/-- The lane made at a place, in one event (R13, R27, R43). -/
def State.addLane (s : State) (n : Nat) (l : Lane) : State :=
  let (directory, inserted) := nameSlot l.store l.slot n s.store.directory
  let record := s.policies.get l.type
  { s with
    store := {
      pool := Table.put n l s.store.pool
      occupiedLanes := s.store.occupiedLanes + 1
      directory := directory
      siteCount := if inserted then s.store.siteCount + 1 else s.store.siteCount }
    policies := s.policies.put l.type { record with laneCount := record.laneCount + 1 }
    lots := { s.lots with
      entries := match l.pendingLot with
        | none => addUser l.activeLot s.lots.entries
        | some p => addUser p (addUser l.activeLot s.lots.entries) } }

/-- The checks of R12 in their order, and the new lane. -/
def createLaneBlock (c : LaneCreation) (s : State) : Taken :=
  match slotNumber c.slot, processType c.type with
  | some slot, some type =>
    if c.store = 0 then answer s .malformed
    else
      let slots := siteSlots c.store s.store.directory
      if (slots.bind fun x => x.get slot).isSome then answer s .laneExists
      else if (s.policies.get type).policy.isNone then answer s .noPolicy
      else
        match lotInState type .current s.lots.entries with
        | none => answer s .noCurrentLot
        | some active =>
          let n := Table.vacant 0 s.store.pool
          if Config.poolPlaces ≤ n then answer s .poolFull
          else if slots.isNone && decide (Config.siteCapacity ≤ s.store.directory.length) then answer s .directoryFull
          else
            let l := newLane c slot type active (lotInState type .rolling s.lots.entries) s.clock.day
              s.sweeps.periodNumber
            answerDone (s.addLane n l) (.laneRecord n l)
  | _, _ => answer s .malformed

/-- CREATE LANE (R12). -/
def execCreateLane (c : LaneCreation) (s : State) : Host.Outcome State Fault Refusal :=
  serve .supervision (.createLane c) (createLaneBlock c) s

/-! ### EDIT LANE (R15, R16) -/

/-- The lane with the parts of an edit that are present, offsets clamped (R15). -/
def editedLane (e : LaneEdit) (l : Lane) : Lane :=
  { l with
    offsets := match e.offsets with
      | none => l.offsets
      | some o => storedOffsets o
    restMask := e.restMask.getD l.restMask
    autoCross := e.autoCross.getD l.autoCross
    autoClear := e.autoClear.getD l.autoClear }

/-- The edit with its further effect: a changed stored offset resettles a lane that is not HELD (R16). -/
def editLaneOf (e : LaneEdit) (l : Lane) : Lane :=
  let l' := editedLane e l
  if l'.offsets = l.offsets ∨ l.state = .held then l' else l'.resettle

/-- EDIT LANE at the Lane Store, lock gate first (R15). -/
def editLaneBlock (name : LaneName) (e : LaneEdit) (s : State) : Taken :=
  onLane name (s := s) fun n l s =>
    if s.lockGate l then answer s .locked
    else answerDone (s.putLane n (editLaneOf e l)) (.laneRecord n (editLaneOf e l))

/-- EDIT LANE (R15). -/
def execEditLane (name : LaneName) (e : LaneEdit) (line : Level) (s : State) : Host.Outcome State Fault Refusal :=
  serve .supervision (.editLane name e) (editLaneBlock name e) (s.drive line)

/-! ### LOCK LANE, UNLOCK LANE (R17) -/

/-- The LOCKED mark written when SUPERVISOR ENABLE is active (R17). -/
def writeLock (mark : Bool) (name : LaneName) (s : State) : Taken :=
  onLane name (s := s) fun n l s =>
    if s.lines.supervisorEnable = .inactive then answer s .supervisorRequired
    else answerDone (s.putLane n { l with locked := mark }) (.laneMarks n { l with locked := mark })

/-- LOCK LANE (R17). -/
def execLockLane (name : LaneName) (line : Level) (s : State) : Host.Outcome State Fault Refusal :=
  serve .supervision (.lockLane name) (writeLock true name) (s.drive line)

/-- UNLOCK LANE (R17). -/
def execUnlockLane (name : LaneName) (line : Level) (s : State) : Host.Outcome State Fault Refusal :=
  serve .supervision (.unlockLane name) (writeLock false name) (s.drive line)

/-! ### Retirement (R19, R21) -/

/-- RETIRE LANE at the Lane Store, lock gate first (R19). -/
def retireLaneBlock (name : LaneName) (s : State) : Taken :=
  onLane name (s := s) fun n l s =>
    if s.lockGate l then answer s .locked
    else answerDone (s.retire n l).1 (.laneRetired n l.store l.slot (s.retire n l).2)

/-- RETIRE LANE (R19). -/
def execRetireLane (name : LaneName) (line : Level) (s : State) : Host.Outcome State Fault Refusal :=
  serve .supervision (.retireLane name) (retireLaneBlock name) (s.drive line)

/-- One slot of RETIRE SITE (R21). -/
def retireSlot (s : State) (lane : Option Nat) : State × SlotOutcome :=
  match lane.bind fun n => (s.lane n).map fun l => (n, l) with
  | none => (s, .empty)
  | some (n, l) => if s.lockGate l then (s, .skippedLocked) else ((s.retire n l).1, .retired)

/-- RETIRE SITE at the Lane Store: the slots in the order 0 to 3 (R21). -/
def retireSiteBlock (store : Nat) (s : State) : Taken :=
  if store = 0 then answer s .malformed
  else
    match siteSlots store s.store.directory with
    | none => answer s .noLane
    | some x =>
      let a := retireSlot s x.s0
      let b := retireSlot a.1 x.s1
      let c := retireSlot b.1 x.s2
      let d := retireSlot c.1 x.s3
      answerDone d.1 (.siteRetired store ⟨a.2, b.2, c.2, d.2⟩)

/-- RETIRE SITE (R21). -/
def execRetireSite (store : Nat) (line : Level) (s : State) : Host.Outcome State Fault Refusal :=
  serve .supervision (.retireSite store) (retireSiteBlock store) (s.drive line)

/-! ### Finding lanes (R22, R23) -/

/-- LOOKUP LANE at the Lane Store (R22). -/
def lookupLaneBlock (name : LaneName) (s : State) : Taken :=
  onLane name (s := s) fun n l s => answerDone s (.laneRecord n l)

/-- LOOKUP LANE (R22). -/
def execLookupLane (name : LaneName) (s : State) : Host.Outcome State Fault Refusal :=
  serve .supervision (.lookupLane name) (lookupLaneBlock name) s

/-- The lane NEXT LANE finds: the lowest occupied place, above the starting number when there is one (R23). -/
def nextLane (start : Option Nat) (pool : Table Lane) : Option (Nat × Lane) :=
  match start with
  | none => pool.head?
  | some n => Table.above n pool

/-- NEXT LANE at the Lane Store (R23). -/
def nextLaneBlock (start : Option Nat) (s : State) : Taken :=
  if start.any fun n => Config.poolPlaces ≤ n then answer s .malformed
  else
    match nextLane start s.store.pool with
    | none => answer s .none
    | some (n, l) => answerDone s (.laneRecord n l)

/-- NEXT LANE (R23). -/
def execNextLane (start : Option Nat) (s : State) : Host.Outcome State Fault Refusal :=
  serve .supervision (.nextLane start) (nextLaneBlock start) s

/-! ### HOLD, RELEASE and REQUALIFY LANE (R121 to R125) -/

/-- A lane put out of service: HELD, OVERDUE cleared, everything else kept (R121). -/
def Lane.hold (l : Lane) : Lane := { l with state := .held, overdue := false }

/-- A lane written by HOLD, RELEASE or REQUALIFY LANE, and the reply of the three. -/
def moveTo (s : State) (n : Nat) (l after : Lane) : Taken := answerDone (s.putLane n after) (.laneMoved n after l.state)

/-- HOLD LANE at the Lane Store, from any state (R121). -/
def holdLaneBlock (name : LaneName) (s : State) : Taken :=
  onLane name (s := s) fun n l s => moveTo s n l l.hold

/-- HOLD LANE (R121). -/
def execHoldLane (name : LaneName) (s : State) : Host.Outcome State Fault Refusal :=
  serve .supervision (.holdLane name) (holdLaneBlock name) s

/-- RELEASE LANE at the Lane Store: a HELD lane resettles (R123). -/
def releaseLaneBlock (name : LaneName) (s : State) : Taken :=
  onLane name (s := s) fun n l s =>
    if l.state = .held then moveTo s n l l.resettle else answer s .wrongState

/-- RELEASE LANE (R123). -/
def execReleaseLane (name : LaneName) (s : State) : Host.Outcome State Fault Refusal :=
  serve .supervision (.releaseLane name) (releaseLaneBlock name) s

/-- REQUALIFY LANE at the Lane Store: a lane that is not HELD resettles (R124). -/
def requalifyLaneBlock (name : LaneName) (s : State) : Taken :=
  onLane name (s := s) fun n l s =>
    if l.state = .held then answer s .wrongState else moveTo s n l l.resettle

/-- REQUALIFY LANE (R124). -/
def execRequalifyLane (name : LaneName) (s : State) : Host.Outcome State Fault Refusal :=
  serve .supervision (.requalifyLane name) (requalifyLaneBlock name) s

end Sys2Proof.Machine
end

