-- ==== Sys2Proof/Machine/Lots.lean ====
section
/-! DEFINITION. The Lot Table's requests (chapter 3): ANNOUNCE LOT, READ LOT in both forms, DELETE LOT. -/
namespace Sys2Proof.Machine

/-- ANNOUNCE LOT at the Lot Table, its checks in order (R50). -/
def announceLotBlock (lot type : Nat) (references : Patches Nat) (s : State) : Taken :=
  match processType type with
  | none => answer s .malformed
  | some t =>
    if lot = 0 then answer s .malformed
    else if (Table.find lot s.lots.entries).isSome then answer s .lotExists
    else if (s.policies.get t).policy.isNone then answer s .noPolicy
    else if Config.lotCapacity ≤ s.lots.entries.length then answer s .lotTableFull
    else
      let entry : Lot := ⟨t, .announced, storedReferences references, 0, s.clock.day⟩
      answerDone { s with lots := ⟨Table.put lot entry s.lots.entries, s.lots.count + 1⟩ }
        (.lotAnnounced lot entry (referencesClip references))

/-- ANNOUNCE LOT (R50). -/
def execAnnounceLot (lot type : Nat) (references : Patches Nat) (s : State) : Host.Outcome State Fault Refusal :=
  serve .supervision (.announceLot lot type references) (announceLotBlock lot type references) s

/-- READ LOT by number at the Lot Table (R51). -/
def readLotBlock (lot : Nat) (s : State) : Taken :=
  if lot = 0 then answer s .malformed
  else
    match Table.find lot s.lots.entries with
    | none => answer s .noLot
    | some e => answerDone s (.lotRead lot e)

/-- READ LOT, the form by number (R51). -/
def execReadLot (lot : Nat) (s : State) : Host.Outcome State Fault Refusal :=
  serve .supervision (.readLot lot) (readLotBlock lot) s

/-- READ LOT following at the Lot Table (R51). -/
def readLotFollowingBlock (start : Nat) (s : State) : Taken :=
  match Table.above start s.lots.entries with
  | none => answer s .none
  | some (n, e) => answerDone s (.lotRead n e)

/-- READ LOT, the following form (R51). -/
def execReadLotFollowing (start : Nat) (s : State) : Host.Outcome State Fault Refusal :=
  serve .supervision (.readLotFollowing start) (readLotFollowingBlock start) s

/-- DELETE LOT at the Lot Table, its checks in order (R52). -/
def deleteLotBlock (lot : Nat) (s : State) : Taken :=
  if lot = 0 then answer s .malformed
  else
    match Table.find lot s.lots.entries with
    | none => answer s .noLot
    | some e =>
      if e.state = .rolling ∨ e.state = .current then answer s .wrongState
      else if 0 < e.users then answer s .lotInUse
      else answerDone { s with lots := ⟨Table.drop lot s.lots.entries, s.lots.count - 1⟩ } (.lotDeleted lot e.type)

/-- DELETE LOT (R52). -/
def execDeleteLot (lot : Nat) (s : State) : Host.Outcome State Fault Refusal :=
  serve .supervision (.deleteLot lot) (deleteLotBlock lot) s

end Sys2Proof.Machine
end

