-- ==== Sys2Proof/Machine/Policies.lean ====
section
/-! DEFINITION. The Policy Table's requests (chapter 2): SET POLICY in both forms, READ POLICY. -/
namespace Sys2Proof.Machine

/-- SET POLICY, defining form, at the Policy Table (R36). -/
def setPolicyBlock (type : Nat) (body : Policy) (s : State) : Taken :=
  match processType type with
  | none => answer s .malformed
  | some t =>
    if s.lines.supervisorEnable = .inactive then answer s .supervisorRequired
    else
      let stored := storedPolicy body
      let count := (s.policies.get t).laneCount
      answerDone (s.withPolicy t ⟨some stored, count⟩) (.policyStored t stored count (adjusted body stored))

/-- SET POLICY, defining form (R36). -/
def execSetPolicy (type : Nat) (body : Policy) (line : Level) (s : State) : Host.Outcome State Fault Refusal :=
  serve .supervision (.setPolicy type body) (setPolicyBlock type body) (s.drive line)

/-- SET POLICY, undefining form, at the Policy Table (R37). -/
def setPolicyUndefineBlock (type : Nat) (s : State) : Taken :=
  match processType type with
  | none => answer s .malformed
  | some t =>
    if s.lines.supervisorEnable = .inactive then answer s .supervisorRequired
    else if 0 < (s.policies.get t).laneCount then answer s .inUse
    else answerDone (s.withPolicy t ⟨none, (s.policies.get t).laneCount⟩) (.policyUndefined t)

/-- SET POLICY, undefining form (R37). -/
def execSetPolicyUndefine (type : Nat) (line : Level) (s : State) : Host.Outcome State Fault Refusal :=
  serve .supervision (.setPolicyUndefine type) (setPolicyUndefineBlock type) (s.drive line)

/-- READ POLICY at the Policy Table (R38). -/
def readPolicyBlock (type : Nat) (s : State) : Taken :=
  match processType type with
  | none => answer s .malformed
  | some t =>
    match (s.policies.get t).policy with
    | none => answer s .noPolicy
    | some p => answerDone s (.policyRead t p (s.policies.get t).laneCount)

/-- READ POLICY (R38). -/
def execReadPolicy (type : Nat) (s : State) : Host.Outcome State Fault Refusal :=
  serve .supervision (.readPolicy type) (readPolicyBlock type) s

end Sys2Proof.Machine
end

