-- ==== Sys2Proof/Machine/StripPort.lean ====
section
/-! DEFINITION. The Strip Port's requests and the Evaluation Engine (chapters 4 and 10): SUBMIT, COLLECT,
EVALUATION, and PROVE on the Supervision Port. -/
namespace Sys2Proof.Machine

/-- The Intake Queue takes a SUBMIT (R176). -/
def submitBlock (report : StripReport) (s : State) : Taken :=
  if Config.intakeCapacity ≤ s.queues.intake.length then answer s .queueFull
  else
    let q := s.queues
    let intake := q.intake ++ [⟨q.ticketCounter, takeIn report⟩]
    .ok ({ s with queues := { q with intake := intake, ticketCounter := (q.ticketCounter + 1) % 256 } },
      .accepted q.ticketCounter intake.length)

/-- SUBMIT (R176). -/
def execSubmit (report : StripReport) (s : State) : Host.Outcome State Fault Refusal :=
  serve .strip (.submit report) (submitBlock report) s

/-- The Verdict Queue takes a COLLECT (R179). -/
def collectBlock (s : State) : Taken :=
  match s.queues.verdicts with
  | [] => answer s .none
  | v :: rest => answerDone { s with queues := { s.queues with verdicts := rest } } (.collected v rest.length)

/-- COLLECT (R179). -/
def execCollect (s : State) : Host.Outcome State Fault Refusal := serve .strip .collect collectBlock s

/-- What the judgement of a report leaves, once its lane, its type's policy and the judgement are known: the
lots' users, the lane, the causes in the order they arose (R67). -/
def commitJudgement (s : State) (n : Nat) (before : Lane) (mask : Causes) (lot : Nat) (j : Judgement) : State :=
  let lots := match j.lotCase with
    | none => s.lots.entries
    | some c => crossUsers c lot before s.lots.entries
  ((s.withLots lots).putLane n j.lane).raiseAll mask n j.causes

/-- The evaluation of one report, with one verdict pushed (R67, R68). -/
def evaluateReport (q : QueuedReport) (s : State) : Except Fault State :=
  let rep := q.report
  match s.laneAt rep.store rep.slot with
  | none => .ok (s.pushVerdict (verdictOf (some q.ticket) rep none (.refused .noLane)))
  | some (n, lane) =>
    match (s.policies.get lane.type).policy with
    | none => .error .lanePolicyUndefined
    | some pol =>
      match judge s.lots.entries pol s.clock.day lane rep with
      | .error f => .error f
      | .ok j =>
        .ok ((commitJudgement s n lane pol.noticeMask rep.lot j).pushVerdict
          (verdictOf (some q.ticket) rep (some n) j.body))

/-- EVALUATION (R67, R178): the engine takes the head report when the intake is not empty and the Verdict
Queue has room. Otherwise, and while READY is low or RESET is asserted (R182, R184), it takes nothing. -/
def execEvaluation (s : State) : Host.Outcome State Fault Refusal :=
  if s.awake && decide (s.queues.verdicts.length < Config.verdictCapacity) then
    match s.queues.intake with
    | [] => .next s
    | q :: rest =>
      match evaluateReport q { s with queues := { s.queues with intake := rest } } with
      | .ok t => .next t
      | .error f => .fault f
  else .next s

/-- The state and progress counts a trial that passed all seven checks would leave (R84). -/
def trialOf (j : Judgement) : Option (LaneState × Nat × Nat) :=
  match j.body with
  | .refused _ => none
  | .evaluated _ _ _ _ => some (j.lane.state, j.lane.settleProgress, j.lane.cleanProgress)

/-- The trial of PROVE: the same judgement, committed nowhere (R83 to R85). -/
def proveBlock (report : StripReport) (s : State) : Taken :=
  let rep := takeIn report
  match s.laneAt rep.store rep.slot with
  | none => answerDone s (.proved none none (verdictOf none rep none (.refused .noLane)))
  | some (n, lane) =>
    match (s.policies.get lane.type).policy with
    | none => .error .lanePolicyUndefined
    | some pol =>
      match judge s.lots.entries pol s.clock.day lane rep with
      | .error f => .error f
      | .ok j => answerDone s (.proved j.lotCase (trialOf j) (verdictOf none rep (some n) j.body))

/-- PROVE (R83). -/
def execProve (report : StripReport) (s : State) : Host.Outcome State Fault Refusal :=
  serve .supervision (.prove report) (proveBlock report) s

end Sys2Proof.Machine
end

