-- ==== Sys2Proof/Machine/Dispatch.lean ====
section
/-! DEFINITION. What each command does to everything but the queue of waiting commands. -/
namespace Sys2Proof.Machine

/-- One arm per row of the opcode table. -/
def exec (i : Instr) (s : State) : Host.Outcome State Fault Refusal :=
  match i with
  | .requestFrameBegin port => Sys2Proof.Machine.execRequestFrameBegin port s
  | .requestFrameEnd port bytes => Sys2Proof.Machine.execRequestFrameEnd port bytes s
  | .readFrame port began clocked => Sys2Proof.Machine.execReadFrame port began clocked s
  | .submit report => Sys2Proof.Machine.execSubmit report s
  | .collect => Sys2Proof.Machine.execCollect s
  | .evaluation => Sys2Proof.Machine.execEvaluation s
  | .createLane creation => Sys2Proof.Machine.execCreateLane creation s
  | .editLane name edit line => Sys2Proof.Machine.execEditLane name edit line s
  | .lockLane name line => Sys2Proof.Machine.execLockLane name line s
  | .unlockLane name line => Sys2Proof.Machine.execUnlockLane name line s
  | .retireLane name line => Sys2Proof.Machine.execRetireLane name line s
  | .retireSite store line => Sys2Proof.Machine.execRetireSite store line s
  | .lookupLane name => Sys2Proof.Machine.execLookupLane name s
  | .nextLane start => Sys2Proof.Machine.execNextLane start s
  | .holdLane name => Sys2Proof.Machine.execHoldLane name s
  | .releaseLane name => Sys2Proof.Machine.execReleaseLane name s
  | .requalifyLane name => Sys2Proof.Machine.execRequalifyLane name s
  | .setPolicy type body line => Sys2Proof.Machine.execSetPolicy type body line s
  | .setPolicyUndefine type line => Sys2Proof.Machine.execSetPolicyUndefine type line s
  | .readPolicy type => Sys2Proof.Machine.execReadPolicy type s
  | .announceLot lot type references => Sys2Proof.Machine.execAnnounceLot lot type references s
  | .readLot lot => Sys2Proof.Machine.execReadLot lot s
  | .readLotFollowing start => Sys2Proof.Machine.execReadLotFollowing start s
  | .deleteLot lot => Sys2Proof.Machine.execDeleteLot lot s
  | .prove report => Sys2Proof.Machine.execProve report s
  | .setClock day minute weekdayBase => Sys2Proof.Machine.execSetClock day minute weekdayBase s
  | .startClock => Sys2Proof.Machine.execStartClock s
  | .stopClock => Sys2Proof.Machine.execStopClock s
  | .readClock => Sys2Proof.Machine.execReadClock s
  | .setDeadline minute => Sys2Proof.Machine.execSetDeadline minute s
  | .minuteTick => Sys2Proof.Machine.execMinuteTick s
  | .dayRollover => Sys2Proof.Machine.execDayRollover s
  | .clockLastMomentStop => Sys2Proof.Machine.execClockLastMomentStop s
  | .deadlineTick => Sys2Proof.Machine.execDeadlineTick s
  | .startPeriodClose => Sys2Proof.Machine.execStartPeriodClose s
  | .startRollout lot => Sys2Proof.Machine.execStartRollout lot s
  | .startOverdue => Sys2Proof.Machine.execStartOverdue s
  | .cancelSweep => Sys2Proof.Machine.execCancelSweep s
  | .sweepStatus => Sys2Proof.Machine.execSweepStatus s
  | .periodCloseStep => Sys2Proof.Machine.execPeriodCloseStep s
  | .rolloutStep => Sys2Proof.Machine.execRolloutStep s
  | .overdueStep => Sys2Proof.Machine.execOverdueStep s
  | .takeNotice => Sys2Proof.Machine.execTakeNotice s
  | .setAttentionMode mode => Sys2Proof.Machine.execSetAttentionMode mode s
  | .attnPulseStart => Sys2Proof.Machine.execAttnPulseStart s
  | .attnPulseEnd => Sys2Proof.Machine.execAttnPulseEnd s
  | .status line => Sys2Proof.Machine.execStatus line s
  | .identify => Sys2Proof.Machine.execIdentify s
  | .powerOn => Sys2Proof.Machine.execPowerOn s
  | .clearingEnd => Sys2Proof.Machine.execClearingEnd s
  | .warmReset => Sys2Proof.Machine.execWarmReset s
  | .resetRelease => Sys2Proof.Machine.execResetRelease s

end Sys2Proof.Machine
end

