-- ==== Sys2Proof/WellFormed.lean ====
section
/-! DEFINITION. Which commands a port can carry: each operand fits its field of the frame layouts
(R186, R187, Tables 11-1 to 11-3), and a request frame's bytes are those of a request frame. -/
namespace Sys2Proof

/-- The values a two-byte signed field carries (R186). -/
def fitsSigned16 (i : Int) : Bool := decide (-32768 ≤ i ∧ i ≤ 32767)

/-- The values an unsigned field of `bits` bits carries. -/
def fitsUnsigned (bits n : Nat) : Bool := decide (n < 2 ^ bits)

/-- A density is sent as 0 to 4095 or absent (R187). -/
def StripReport.WellFormed (r : StripReport) : Bool :=
  fitsUnsigned 16 r.store && fitsUnsigned 8 r.slot && fitsUnsigned 24 r.lot && fitsUnsigned 16 r.day &&
    r.densities.toList.all fun d => (d.getD 0) < 4096

def LaneName.WellFormed : LaneName → Bool
  | .bySlot store slot => fitsUnsigned 16 store && fitsUnsigned 8 slot
  | .byNumber n => fitsUnsigned 16 n

def offsetsWellFormed (o : Option (Points Int)) : Bool :=
  match o with
  | none => true
  | some x => x.toList.all fitsSigned16

def LaneCreation.WellFormed (c : LaneCreation) : Bool :=
  fitsUnsigned 16 c.store && fitsUnsigned 8 c.slot && fitsUnsigned 8 c.type && offsetsWellFormed c.offsets

def LaneEdit.WellFormed (e : LaneEdit) : Bool := offsetsWellFormed e.offsets

def Limits.WellFormed (l : Limits) : Bool :=
  fitsSigned16 l.actionLow && fitsSigned16 l.warnLow && fitsSigned16 l.warnHigh && fitsSigned16 l.actionHigh

/-- The policy body of Table 11-3. -/
def Policy.WellFormed (p : Policy) : Bool :=
  p.limits.toList.all Limits.WellFormed && p.driftThreshold.toList.all (fitsUnsigned 16) &&
    fitsUnsigned 8 p.filterShift && fitsUnsigned 8 p.deadband && fitsUnsigned 8 p.runLength &&
    fitsUnsigned 8 p.settleCount && fitsUnsigned 8 p.clearCount && fitsUnsigned 8 p.overdueLimit

/-- A request whose every field fits its frame (Tables 11-1 to 11-3). -/
def Request.WellFormed : Request → Bool
  | .submit r | .prove r => r.WellFormed
  | .createLane c => c.WellFormed
  | .editLane n e => n.WellFormed && e.WellFormed
  | .retireLane n | .lookupLane n | .lockLane n | .unlockLane n
  | .holdLane n | .releaseLane n | .requalifyLane n => n.WellFormed
  | .retireSite store => fitsUnsigned 16 store
  | .nextLane start => fitsUnsigned 16 (start.getD 0)
  | .setPolicy t b => fitsUnsigned 8 t && b.WellFormed
  | .setPolicyUndefine t | .readPolicy t => fitsUnsigned 8 t
  | .announceLot lot t refs =>
      fitsUnsigned 24 lot && fitsUnsigned 8 t && refs.toList.all (fitsUnsigned 16)
  | .readLot lot | .readLotFollowing lot | .deleteLot lot | .startRollout lot => fitsUnsigned 24 lot
  | .setClock d m b => fitsUnsigned 16 d && fitsUnsigned 16 m && fitsUnsigned 8 b
  | .setDeadline m => fitsUnsigned 16 m
  | .setAttentionMode m => fitsUnsigned 8 m
  | .collect | .startClock | .stopClock | .readClock | .startPeriodClose | .startOverdue
  | .cancelSweep | .sweepStatus | .takeNotice | .status | .identify => true

/-- The request a request command stands for, and the port that carries it (Table 10-1). -/
def Instr.request : Instr → Option (Port × Request)
  | .submit r => some (.strip, .submit r)
  | .collect => some (.strip, .collect)
  | .createLane c => some (.supervision, .createLane c)
  | .editLane n e _ => some (.supervision, .editLane n e)
  | .lockLane n _ => some (.supervision, .lockLane n)
  | .unlockLane n _ => some (.supervision, .unlockLane n)
  | .retireLane n _ => some (.supervision, .retireLane n)
  | .retireSite store _ => some (.supervision, .retireSite store)
  | .lookupLane n => some (.supervision, .lookupLane n)
  | .nextLane start => some (.supervision, .nextLane start)
  | .holdLane n => some (.supervision, .holdLane n)
  | .releaseLane n => some (.supervision, .releaseLane n)
  | .requalifyLane n => some (.supervision, .requalifyLane n)
  | .setPolicy t b _ => some (.supervision, .setPolicy t b)
  | .setPolicyUndefine t _ => some (.supervision, .setPolicyUndefine t)
  | .readPolicy t => some (.supervision, .readPolicy t)
  | .announceLot lot t refs => some (.supervision, .announceLot lot t refs)
  | .readLot lot => some (.supervision, .readLot lot)
  | .readLotFollowing start => some (.supervision, .readLotFollowing start)
  | .deleteLot lot => some (.supervision, .deleteLot lot)
  | .prove r => some (.supervision, .prove r)
  | .setClock d m b => some (.supervision, .setClock d m b)
  | .startClock => some (.supervision, .startClock)
  | .stopClock => some (.supervision, .stopClock)
  | .readClock => some (.supervision, .readClock)
  | .setDeadline m => some (.supervision, .setDeadline m)
  | .startPeriodClose => some (.supervision, .startPeriodClose)
  | .startRollout lot => some (.supervision, .startRollout lot)
  | .startOverdue => some (.supervision, .startOverdue)
  | .cancelSweep => some (.supervision, .cancelSweep)
  | .sweepStatus => some (.supervision, .sweepStatus)
  | .takeNotice => some (.supervision, .takeNotice)
  | .setAttentionMode m => some (.supervision, .setAttentionMode m)
  | .status _ => some (.supervision, .status)
  | .identify => some (.supervision, .identify)
  | .requestFrameBegin _ | .requestFrameEnd _ _ | .readFrame _ _ _ | .evaluation
  | .minuteTick | .dayRollover | .clockLastMomentStop | .deadlineTick
  | .periodCloseStep | .rolloutStep | .overdueStep | .attnPulseStart | .attnPulseEnd
  | .powerOn | .clearingEnd | .warmReset | .resetRelease => none

/-- A command the outside can send. A request frame that ends has its frame kind, and a kind other than
READ's 01h, since a frame without a kind is no frame (R172) and READ is no request frame (10.1). -/
def Instr.WellFormed (i : Instr) : Bool :=
  match i with
  | .requestFrameEnd _ bytes => bytes.head?.any fun kind => kind != 0x01
  | i => i.request.all fun pr => pr.2.WellFormed

end Sys2Proof
end

