-- ==== Sys2Proof/Safety.lean ====
section
/-! DEFINITION. The terms the statements use: when the owning block takes a request, the SUPERVISOR ENABLE
level a command carries, and what a sound state is, block by block. -/
namespace Sys2Proof.Machine

/-! ### Taking a request -/

/-- A framer that is not ANSWERING another request (R171, R173). -/
def openTo (r : Request) : Framer → Bool
  | .answering r' => decide (r' = r)
  | .idle | .taking | .replyHeld _ => true

/-- The request is taken by its owning block: READY is high, RESET is released, no other request stands
ANSWERING at the port, and the framer's own checks pass (R173 to R175, R182, R184). -/
abbrev Takes (p : Port) (r : Request) (s : State) : Prop :=
  s.lines.ready = true ∧ s.lines.resetAsserted = false ∧ openTo r (s.framer p) = true ∧ structureOk r = true

/-- The part takes its own steps (R182, R184). -/
abbrev Awake (s : State) : Prop := s.lines.ready = true ∧ s.lines.resetAsserted = false

/-- The level of SUPERVISOR ENABLE in the event of a command, when its rule samples the line. -/
def lineOf : Instr → Option Level
  | .editLane _ _ line | .lockLane _ line | .unlockLane _ line | .retireLane _ line | .retireSite _ line
  | .setPolicy _ _ line | .setPolicyUndefine _ line | .status line => some line
  | _ => none

/-- The state with SUPERVISOR ENABLE at the level the command finds it. -/
def State.driven (s : State) (c : Instr) : State :=
  match lineOf c with
  | none => s
  | some line => s.drive line

/-- The port that carries a request (Table 10-1). -/
def requestPort : Request → Port
  | .submit _ | .collect => .strip
  | _ => .supervision

/-- The name of the lane a command acts on, for the eight commands that name one (R11). -/
def laneNameOf : Instr → Option LaneName
  | .editLane name _ _ | .lockLane name _ | .unlockLane name _ | .retireLane name _ | .lookupLane name
  | .holdLane name | .releaseLane name | .requalifyLane name => some name
  | _ => none

/-- Whether a cause passes a notice mask (R35, R161). -/
def passes (mask : Causes) (c : Cause) : Bool := mask.has c || decide (c = .action)

/-! ### What an event leaves -/

/-- An event on the lane of one place: every other lane, the directory and the counts, and every block but the
lots, the queues and the Attention List, stand as they did. -/
structure OnlyLane (n : Nat) (s t : State) : Prop where
  pending : t.pending = s.pending
  lines : t.lines = s.lines
  ports : t.ports = s.ports
  directory : t.store.directory = s.store.directory
  occupiedLanes : t.store.occupiedLanes = s.store.occupiedLanes
  siteCount : t.store.siteCount = s.store.siteCount
  policies : t.policies = s.policies
  clock : t.clock = s.clock
  sweeps : t.sweeps = s.sweeps
  status : t.status = s.status
  others : ∀ m, m ≠ n → t.lane m = s.lane m

/-! ### The stages of an evaluation -/

/-- The engine takes the report `q` from the head of the intake, with `rest` behind it, and finds the lane `l`
at place `n` and its type's policy (R67, R68, R178). -/
structure Judges (s : State) (q : QueuedReport) (rest : List QueuedReport) (n : Nat) (l : Lane) (pol : Policy) :
    Prop where
  awake : Awake s
  room : s.queues.verdicts.length < 24
  head : s.queues.intake = q :: rest
  lane : s.laneAt q.report.store q.report.slot = some (n, l)
  policy : (s.policies.get l.type).policy = some pol

/-- The report passes checks 2 to 5 (R69 to R72). -/
structure PassesDayChecks (s : State) (l : Lane) (day : Nat) : Prop where
  notHeld : l.state ≠ .held
  notStale : l.lastDay.getD l.createdDay ≤ day
  notAhead : day ≤ s.clock.day
  rerunLeft : ¬(l.lastDay = some day ∧ l.rerunsToday = 2)

/-- Lot resolution accepts the report by case `c` (R54 to R57, Table 3-4). -/
inductive ResolvesTo (s : State) (l : Lane) (lot : Nat) : LotCase → Prop where
  | active : lot = l.activeLot → ResolvesTo s l lot .active
  | pending : lot ≠ l.activeLot → l.pendingLot = some lot → ResolvesTo s l lot .pending
  | auto (e : Lot) : lot ≠ l.activeLot → l.pendingLot ≠ some lot → Table.find lot s.lots.entries = some e →
      e.type = l.type → (e.state = .current ∨ e.state = .rolling) → l.autoCross = true → ResolvesTo s l lot .auto

/-- The lot resolution case that PROVE reports of a trial (R62, R84): none when the trial ends before check 6, and
otherwise the case of Table 3-4 that decides, 4 and 5 included. -/
structure TrialCase (s : State) (rep : StripReport) (case : Option LotCase) : Prop where
  noLane : s.laneAt rep.store rep.slot = none → case = none
  before : ∀ n l, s.laneAt rep.store rep.slot = some (n, l) → ¬PassesDayChecks s l rep.day → case = none
  accepted : ∀ n l c, s.laneAt rep.store rep.slot = some (n, l) → PassesDayChecks s l rep.day →
    ResolvesTo s l rep.lot c → case = some c
  refused : ∀ n l, s.laneAt rep.store rep.slot = some (n, l) → PassesDayChecks s l rep.day →
    (∀ c, ¬ResolvesTo s l rep.lot c) →
    case = some (if (Table.find rep.lot s.lots.entries).isSome then .mismatch else .unknown)

/-- A plot point that is evaluated, with its plot value (R74, R76). -/
def EvaluatedAt (pol : Policy) (rep : Report) (p : Point) (v : Int) : Prop :=
  pol.used.pick p = true ∧ plotValue (rep.densities.get p.channel) p.quantity = some v

/-- The report passes all seven checks, by case `c`, against the references of the lot `e` (R67). -/
structure Accepts (s : State) (q : QueuedReport) (rest : List QueuedReport) (n : Nat) (l : Lane) (pol : Policy)
    (c : LotCase) (e : Lot) : Prop where
  judges : Judges s q rest n l pol
  days : PassesDayChecks s l q.report.day
  case : ResolvesTo s l q.report.lot c
  lot : Table.find q.report.lot s.lots.entries = some e
  data : ∃ p v, EvaluatedAt pol q.report p v

/-- The deviation of a plot value against the references, clamped (R77, R78). -/
def deviationOf (e : Lot) (l : Lane) (p : Point) (v : Int) : Int :=
  max (-1000) (min 1000 (v - (plot (Strip.map (fun x : Nat => (x : Int)) (e.references.get p.channel)) p.quantity +
    l.offsets.pick p)))

/-- The run count a reading meets: 0 after a crossover in the same event (R56, R57, R87). -/
def runCountMet (c : LotCase) (l : Lane) (p : Point) : Int :=
  match c with
  | .pending | .auto => 0
  | .active | .mismatch | .unknown => l.runCount.pick p

/-! ### Soundness of the records -/

/-- A policy whose fields lie in the ranges of Table 2-1, its limits in order (R26, R29). -/
structure PolicyInRange (p : Policy) : Prop where
  limits : ∀ q, -1000 ≤ (p.limits.pick q).actionLow ∧ (p.limits.pick q).actionLow ≤ (p.limits.pick q).warnLow ∧
    (p.limits.pick q).warnLow ≤ 0 ∧ 0 ≤ (p.limits.pick q).warnHigh ∧
    (p.limits.pick q).warnHigh ≤ (p.limits.pick q).actionHigh ∧ (p.limits.pick q).actionHigh ≤ 1000
  threshold : ∀ q, 1 ≤ p.driftThreshold.pick q ∧ p.driftThreshold.pick q ≤ 1000
  shift : 1 ≤ p.filterShift ∧ p.filterShift ≤ 4
  deadband : p.deadband ≤ 100
  runLength : p.runLength = 0 ∨ 3 ≤ p.runLength ∧ p.runLength ≤ 15
  settle : 1 ≤ p.settleCount ∧ p.settleCount ≤ 8
  clear : 1 ≤ p.clearCount ∧ p.clearCount ≤ 8
  overdue : 1 ≤ p.overdueLimit ∧ p.overdueLimit ≤ 7
  action : p.noticeMask.action = true

/-- Counters within their ranges (R4). -/
structure CountersInRange (c : Counters) : Prop where
  readings : c.readings ≤ 65535
  warns : c.warns ≤ 255
  driftEntries : c.driftEntries ≤ 255
  actionEntries : c.actionEntries ≤ 255
  reruns : c.reruns ≤ 255
  refusals : c.refusals ≤ 255
  overdueRaises : c.overdueRaises ≤ 255
  crossovers : c.crossovers ≤ 255

/-- A lane whose fields lie in the ranges of Table 1-1 and of R90, R97, R110 and R122. -/
structure LaneInRange (l : Lane) : Prop where
  store : 1 ≤ l.store ∧ l.store ≤ 65535
  settle : l.settleProgress ≤ 8
  clean : l.cleanProgress ≤ 8
  settleOnly : l.state ≠ .settling → l.state ≠ .held → l.settleProgress = 0
  cleanOnly : l.state ≠ .drift → l.state ≠ .action → l.state ≠ .held → l.cleanProgress = 0
  offsets : ∀ p, -500 ≤ l.offsets.pick p ∧ l.offsets.pick p ≤ 500
  trend : ∀ p, -16000 ≤ (l.trend.pick p).value ∧ (l.trend.pick p).value ≤ 16000
  unseeded : ∀ p, (l.trend.pick p).seeded = false → (l.trend.pick p).value = 0
  runCount : ∀ p, -15 ≤ l.runCount.pick p ∧ l.runCount.pick p ≤ 15
  lastDeviation : ∀ p d, l.lastDeviation.pick p = some d → -1000 ≤ d ∧ d ≤ 1000
  created : l.createdDay ≤ 65535
  lastDay : ∀ d, l.lastDay = some d → l.createdDay ≤ d ∧ d ≤ 65535
  reruns : l.rerunsToday ≤ 2
  held : l.state = .held → l.overdue = false
  counters : CountersInRange l.counters
  summary : CountersInRange l.summary
  tag : l.periodTag ≤ 65535

/-! ### Soundness of the state, block by block -/

/-- The commands that wait are commands the outside can send. -/
def PendingSound (s : State) : Prop := ∀ c ∈ s.pending, c.WellFormed = true

/-- The framers: IDLE while RESET is asserted, never ANSWERING while READY is low, and ANSWERING only a
request of the port that passed the framer's checks (R171, R174, R175, R184). -/
structure PortsSound (s : State) : Prop where
  reset : s.lines.resetAsserted = true → ∀ p, s.framer p = .idle
  clearing : s.lines.ready = false → ∀ p r, s.framer p ≠ .answering r
  answering : ∀ p r, s.framer p = .answering r → requestPort r = p ∧ structureOk r = true

/-- The tickets of both queues, from the head of the Verdict Queue to the tail of the Intake Queue (R177). -/
def tickets (s : State) : List (Option Nat) :=
  s.queues.verdicts.map Verdict.ticket ++ s.queues.intake.map fun q => some q.ticket

/-- The `n` consecutive ticket numbers before `counter`, wrapping from 255 to 0. -/
def ticketsBefore (counter n : Nat) : List (Option Nat) :=
  (List.range n).map fun i => some ((counter + 256 - n + i) % 256)

/-- The queues: at most 24 entries each, and their tickets consecutive up to the counter (R177, R179). -/
structure QueuesSound (s : State) : Prop where
  intake : s.queues.intake.length ≤ 24
  verdicts : s.queues.verdicts.length ≤ 24
  counter : s.queues.ticketCounter < 256
  consecutive : tickets s = ticketsBefore s.queues.ticketCounter (tickets s).length

/-- The pool in its canonical form, and its count (R6). -/
structure PoolSound (s : State) : Prop where
  canonical : Table.wf s.store.pool
  places : ∀ e ∈ s.store.pool, e.1 < 1536
  count : s.store.occupiedLanes = s.store.pool.length

/-- The Site Directory (R7). -/
structure DirectorySound (s : State) : Prop where
  ascending : s.store.directory.Pairwise fun a b => a.store < b.store
  count : s.store.siteCount = s.store.directory.length
  capacity : s.store.directory.length ≤ 512
  occupied : ∀ e ∈ s.store.directory, e.slots ≠ Slots.vacant
  names : ∀ e ∈ s.store.directory, ∀ i n, e.slots.get i = some n →
    ∃ l, s.lane n = some l ∧ l.store = e.store ∧ l.slot = i
  named : ∀ n l, s.lane n = some l → ∃ e ∈ s.store.directory, e.store = l.store ∧ e.slots.get l.slot = some n

/-- The policies: stored values in range, lane counts exact, and every lane's type defined (R26, R27). -/
structure PoliciesSound (s : State) : Prop where
  inRange : ∀ t p, (s.policies.get t).policy = some p → PolicyInRange p
  count : ∀ t, (s.policies.get t).laneCount = s.store.pool.countP fun e => e.2.type = t
  defined : ∀ n l, s.lane n = some l → (s.policies.get l.type).policy.isSome = true

/-- The Lot Table: user counts exact, every named lot present and of the lane's type, a lane's two lots
distinct, at most one CURRENT lot per type, and a lot ROLLING exactly while its rollout runs (R41, R43, R48,
R53). -/
structure LotsSound (s : State) : Prop where
  canonical : Table.wf s.lots.entries
  count : s.lots.count = s.lots.entries.length
  capacity : s.lots.entries.length ≤ 32
  numbers : ∀ n e, Table.find n s.lots.entries = some e → 1 ≤ n
  references : ∀ n e, Table.find n s.lots.entries = some e → ∀ v ∈ Patches.toList e.references, v ≤ 4000
  users : ∀ n e, Table.find n s.lots.entries = some e →
    e.users = s.store.pool.countP fun x => decide (x.2.activeLot = n) || decide (x.2.pendingLot = some n)
  active : ∀ n l, s.lane n = some l → ∃ e, Table.find l.activeLot s.lots.entries = some e ∧ e.type = l.type
  pendingLot : ∀ n l p, s.lane n = some l → l.pendingLot = some p →
    p ≠ l.activeLot ∧ ∃ e, Table.find p s.lots.entries = some e ∧ e.type = l.type
  oneCurrent : ∀ a b x y, Table.find a s.lots.entries = some x → Table.find b s.lots.entries = some y →
    x.state = .current → y.state = .current → x.type = y.type → a = b
  rolling : ∀ n e, Table.find n s.lots.entries = some e →
    (e.state = .rolling ↔ ∃ w, s.sweeps.engine = .running w ∧ w.kind = .rollout n)
  rolled : ∀ w n, s.sweeps.engine = .running w → w.kind = .rollout n → (Table.find n s.lots.entries).isSome = true

/-- Every lane in range. -/
def LanesSound (s : State) : Prop := ∀ n l, s.lane n = some l → LaneInRange l

/-- The clock's values within Table 7-1. -/
structure ClockSound (s : State) : Prop where
  day : s.clock.day ≤ 65535
  minute : s.clock.minute ≤ 1439
  weekdayBase : s.clock.weekdayBase ≤ 6
  deadline : s.clock.deadline ≤ 1439

/-- The Sweep Engine: cursor and step count in range, an overdue check pending only while a sweep runs, and
the period tags of R150 (R144, R145). -/
structure SweepsSound (s : State) : Prop where
  cursor : ∀ w, s.sweeps.engine = .running w → w.cursor < 1536 ∧ w.steps ≤ w.cursor
  origin : ∀ w, s.sweeps.engine = .running w → w.kind ≠ .overdue → w.origin = .request
  pendingOverdue : s.sweeps.pendingOverdue = true → ∃ w, s.sweeps.engine = .running w
  period : s.sweeps.periodNumber ≤ 65535
  tags : ∀ n l, s.lane n = some l → l.periodTag = s.sweeps.periodNumber ∨
    ∃ w, s.sweeps.engine = .running w ∧ w.kind = .periodClose ∧ w.cursor ≤ n ∧
      l.periodTag = (s.sweeps.periodNumber + 65535) % 65536

/-- The Attention List: each lane at most once, a lane listed exactly when its cause set is non-empty, with a
join stamp exactly then, the length exact, and the pulses as the mode allows (R160, R168, R169). -/
structure ListSound (s : State) : Prop where
  once : s.attention.order.Nodup
  length : s.attention.length = s.attention.order.length
  listed : ∀ n, n ∈ s.attention.order ↔ ∃ l, s.lane n = some l ∧ l.causes ≠ .empty
  stamped : ∀ n l, s.lane n = some l → (l.joined.isSome = true ↔ l.causes ≠ .empty)
  owed : s.attention.pulsesOwed ≤ 255
  level : s.attention.mode = .level → s.attention.pulsesOwed = 0
  pulse : s.attention.pulseInProgress = true → 0 < s.attention.pulsesOwed

/-- The sound states: those whose records agree with each other as the manual says they do at every moment. -/
structure Sound (s : State) : Prop where
  pending : PendingSound s
  ports : PortsSound s
  queues : QueuesSound s
  pool : PoolSound s
  directory : DirectorySound s
  policies : PoliciesSound s
  lots : LotsSound s
  lanes : LanesSound s
  clock : ClockSound s
  sweeps : SweepsSound s
  list : ListSound s

/-- Every lane's policy and lots can be read: what an evaluation, a trial and an overdue step need (R27, R43). -/
def LanesServed (s : State) : Prop :=
  ∀ n l, s.lane n = some l → (s.policies.get l.type).policy.isSome = true ∧
    (Table.find l.activeLot s.lots.entries).isSome = true ∧
    ∀ p, l.pendingLot = some p → (Table.find p s.lots.entries).isSome = true

end Sys2Proof.Machine
end

