-- ==== Sys2Proof/Certificates/Slice0/Obligations.lean ====
section
/-! DEFINITION. The statements for the provers. A statement about a request holds when the owning block takes it
(`Takes`); `RequestsNotTaken` says what becomes of a request in every other case. Two choices of the model stand in
all of these: a request command stands for its frame too when its framer is not ANSWERING it (log entry 3), and a
command whose rule samples SUPERVISOR ENABLE carries the line's level as `line` and drives the line to it (log
entry 6). -/

open Sys2Proof Sys2Proof.Machine

/-! ### The queue of commands, the ports and the frames (chapters 10 and 11) -/

/-- The model's own order (log entry 1): a step runs the command at the front, and idles on an empty queue. -/
def Obligations.StepRunsTheFrontCommand : Prop :=
  (∀ (s : State) (c : Instr) (rest : List Instr), s.pending = c :: rest →
    step s = exec c { s with pending := rest }) ∧
  (∀ s : State, s.pending = [] → step s = .next s)

/-- Every command has a meaning, and none touches the commands that wait. -/
def Obligations.CommandsKeepTheQueueAndNeverRefuse : Prop :=
  ∀ (c : Instr) (s : State),
    (∀ x, exec c s ≠ .refused x) ∧ ∀ t, exec c s = .next t → t.pending = s.pending

/-- What becomes of a request that is not taken (R173 to R175, R182, R184). That a request command stands for its
frame too is the model's choice (log entry 3), and so is the driven line (log entry 6). -/
def Obligations.RequestsNotTaken : Prop :=
  ∀ (c : Instr) (p : Port) (r : Request) (s : State), c.request = some (p, r) →
    (s.lines.resetAsserted = true → exec c s = .next (s.driven c)) ∧
    (s.lines.resetAsserted = false → openTo r (s.framer p) = false → exec c s = .next (s.driven c)) ∧
    (s.lines.resetAsserted = false → openTo r (s.framer p) = true → structureOk r = false →
      exec c s = .next ((s.driven c).hold p (.bare .malformed))) ∧
    (s.lines.resetAsserted = false → openTo r (s.framer p) = true → structureOk r = true → s.lines.ready = false →
      exec c s = .next ((s.driven c).hold p (.bare .notReady)))

/-- Table 10-2, the rows "request frame begins" and "request frame ends" (R173, R174, R184), with the frame of no
bytes, which is no frame (R172), and the REPLY READY line of each port, high exactly in REPLY HELD (R171). -/
def Obligations.RequestFramesBeginAndEnd : Prop :=
  (∀ s : State, (stripReplyReady s = true ↔ ∃ reply, s.framer .strip = .replyHeld reply) ∧
    (supervisionReplyReady s = true ↔ ∃ reply, s.framer .supervision = .replyHeld reply)) ∧
  (∀ (p : Port) (s : State), exec (.requestFrameEnd p []) s = .next s) ∧
  ∀ (p : Port) (s : State) (bytes : List Byte),
    (s.lines.resetAsserted = true →
      exec (.requestFrameBegin p) s = .next s ∧ exec (.requestFrameEnd p bytes) s = .next s) ∧
    (s.lines.resetAsserted = false →
      (s.framer p = .idle → exec (.requestFrameBegin p) s = .next (s.withFramer p .taking)) ∧
      (∀ reply, s.framer p = .replyHeld reply → exec (.requestFrameBegin p) s = .next (s.withFramer p .taking)) ∧
      (∀ r, s.framer p = .answering r → exec (.requestFrameBegin p) s = .next s) ∧
      (s.framer p = .taking → exec (.requestFrameBegin p) s = .fault .frameOnBusyPort) ∧
      (s.framer p ≠ .taking → exec (.requestFrameEnd p bytes) s = .next s) ∧
      (s.framer p = .taking → bytes ≠ [] →
        (parseFrame p bytes = none → exec (.requestFrameEnd p bytes) s = .next (s.hold p (.bare .malformed))) ∧
        (∀ r, parseFrame p bytes = some r → s.lines.ready = false →
          exec (.requestFrameEnd p bytes) s = .next (s.hold p (.bare .notReady))) ∧
        (∀ r, parseFrame p bytes = some r → s.lines.ready = true →
          exec (.requestFrameEnd p bytes) s = .next (s.withFramer p (.answering r)))))

/-- Table 10-2, the row "READ frame completes", and the bytes it shifts out (R172, R184). That the bytes are kept
in the state is the model's choice (log entry 7). -/
def Obligations.ReadFramesShiftTheReplyOut : Prop :=
  ∀ (p : Port) (began : ReadStart) (n : Nat) (s : State),
    (s.lines.resetAsserted = true ∨ began = .underReset → exec (.readFrame p began n) s = .next s) ∧
    (s.lines.resetAsserted = false → began ≠ .underReset →
      (s.framer p = .taking → exec (.readFrame p began n) s = .fault .frameOnBusyPort) ∧
      (s.framer p = .idle →
        exec (.readFrame p began n) s = .next (s.withPort p ⟨.idle, List.replicate n 0xFF⟩)) ∧
      (∀ r, s.framer p = .answering r →
        exec (.readFrame p began n) s = .next (s.withPort p ⟨.answering r, List.replicate n 0xFF⟩)) ∧
      (∀ reply, s.framer p = .replyHeld reply → began = .noReply →
        exec (.readFrame p began n) s = .next (s.withPort p ⟨.replyHeld reply, List.replicate n 0xFF⟩)) ∧
      (∀ reply, s.framer p = .replyHeld reply → began = .replyHeld →
        ((replyBytes reply).length ≤ n → exec (.readFrame p began n) s = .next (s.withPort p
          ⟨.idle, replyBytes reply ++ List.replicate (n - (replyBytes reply).length) 0xFF⟩)) ∧
        (n < (replyBytes reply).length → exec (.readFrame p began n) s = .next (s.withPort p
          ⟨.replyHeld reply, (replyBytes reply).take n⟩))))

/-- Every request whose fields fit its frame is read back from that frame on its own port, and the other port
refuses the frame (R186, R187, Tables 11-1 to 11-3). That SET POLICY thresholds above 32767 are read as unsigned is
the model's reading (log entry 13). -/
def Obligations.RequestsReadBackFromTheirFrames : Prop :=
  ∀ (r : Request), r.WellFormed = true → structureOk r = true →
    parseFrame (requestPort r) (requestBytes r) = some r ∧
    ∀ p, p ≠ requestPort r → parseFrame p (requestBytes r) = none

/-- A frame that passes the checks of R187 carries a request of its port whose fields fit and whose structure is
sound, in a frame of exactly that request's header and length. -/
def Obligations.ParsedFramesCarryWellFormedRequests : Prop :=
  ∀ (p : Port) (bytes : List Byte) (r : Request), parseFrame p bytes = some r →
    requestPort r = p ∧ r.WellFormed = true ∧ structureOk r = true ∧
    bytes.length = (requestBytes r).length ∧ bytes.take 2 = (requestBytes r).take 2

/-- The lengths that R188, R189 and Table 11-3 give; the codes of Tables 11-4 and 11-5; the code, the two-byte
length and the body of each reply; and the field at each place of the policy body, the verdict, the lane record and
the notice (Tables 11-3 and 11-6 to 11-8). Nothing is said of the bits that stand for nothing (log entry 20). -/
def Obligations.RecordsAndRepliesHaveTheirLengths : Prop :=
  (∀ n l, (laneBytes n l).length = 131) ∧
  (∀ n, (noticeBytes n).length = 12) ∧
  (∀ p, (policyBytes p).length = 129) ∧
  (∀ (v : Verdict) reason, v.body = .refused reason → (verdictBytes v).length = 10) ∧
  (∀ (v : Verdict) o after x entries, v.body = .evaluated o after x entries →
    (verdictBytes v).length = 14 + 8 * entries.length) ∧
  (∀ code, (replyBytes (.bare code)).length = 3) ∧
  (∀ ticket depth, (replyBytes (.accepted ticket depth)).length = 5) ∧
  (∀ body, (replyBytes (.done body)).length = 3 + (doneBytes body).length) ∧
  (∀ reply, (replyBytes reply).head? ≠ some 0xFF) ∧
  -- Table 11-4, in whole replies
  (∀ e ∈ [(ReplyCode.none, 0x02), (.listEmpty, 0x03), (.queueFull, 0x04), (.malformed, 0x10), (.notReady, 0x11),
      (.noLane, 0x12), (.laneExists, 0x13), (.poolFull, 0x14), (.directoryFull, 0x15), (.noPolicy, 0x16),
      (.noCurrentLot, 0x17), (.locked, 0x18), (.supervisorRequired, 0x19), (.inUse, 0x1A), (.lotExists, 0x1B),
      (.lotTableFull, 0x1C), (.noLot, 0x1D), (.lotInUse, 0x1E), (.wrongState, 0x1F), (.clockRunning, 0x20),
      (.sweepBusy, 0x21)],
    replyBytes (.bare e.1) = [(e.2 : Byte), 0, 0]) ∧
  (∀ ticket depth, ticket < 256 → depth < 256 → let b := replyBytes (.accepted ticket depth)
    read1 b 0 = 1 ∧ read2 b 1 = 2 ∧ read1 b 3 = ticket ∧ read1 b 4 = depth) ∧
  (∀ body, (doneBytes body).length < 65536 → let b := replyBytes (.done body)
    read1 b 0 = 0 ∧ read2 b 1 = (doneBytes body).length ∧ b.drop 3 = doneBytes body) ∧
  -- the bodies R188 lists
  (∀ n l, doneBytes (.laneRecord n l) = laneBytes n l) ∧
  (∀ v remaining, remaining < 256 → let b := doneBytes (.collected v remaining)
    read1 b 0 = remaining ∧ b.drop 1 = verdictBytes v) ∧
  (∀ r length, length < 65536 → let b := doneBytes (.notice r length)
    b.take 12 = noticeBytes r ∧ read2 b 12 = length) ∧
  (∀ c trial v, let b := doneBytes (.proved c trial v)
    (c = none → read1 b 0 = 0) ∧
    (∀ e ∈ [(LotCase.active, 1), (.pending, 2), (.auto, 3), (.mismatch, 4), (.unknown, 5)],
      c = some e.1 → read1 b 0 = e.2) ∧
    (trial = none → read1 b 1 = 0xFF ∧ read1 b 2 = 0 ∧ read1 b 3 = 0) ∧
    (∀ st settle clean, trial = some (st, settle, clean) → settle < 256 → clean < 256 →
      read1 b 1 = st.code ∧ read1 b 2 = settle ∧ read1 b 3 = clean) ∧
    b.drop 4 = verdictBytes v) ∧
  (∀ t p count adj, count < 65536 → let b := doneBytes (.policyStored t p count adj)
    read1 b 0 = t ∧ (b.drop 1).take 129 = policyBytes p ∧ read2 b 130 = count ∧ read1 b 132 = adj.toNat ∧
      doneBytes (.policyRead t p count) = b.take 132) ∧
  -- Table 11-5
  [LaneState.settling, .steady, .watch, .drift, .action, .held].map LaneState.code = List.range 6 ∧
  [LotState.announced, .rolling, .current, .superseded].map LotState.code = List.range 4 ∧
  [Zone.actionLow, .warnLow, .centre, .warnHigh, .actionHigh].map Zone.code = List.range 5 ∧
  [ReadingOutcome.clean, .warn, .trend, .limit].map ReadingOutcome.code = List.range 4 ∧
  [Crossover.none, .pending, .auto].map Crossover.code = List.range 3 ∧
  [Reason.noLane, .held, .stale, .ahead, .rerunLimit, .lotMismatch, .lotUnknown, .noData].map Reason.code =
    [1, 2, 3, 4, 5, 6, 7, 8] ∧
  (∀ n, [Cause.watch, .drift, .action, .cleared, .overdue, .crossover, .lotRefused].map (causesOf n).has =
    (List.range 7).map n.testBit) ∧
  (∀ n, (List.range 7).map (weekdaysOf n).has = (List.range 7).map n.testBit) ∧
  ([.r, .g, .b].flatMap fun c => [Quantity.fog, .speed, .contrast, .dmax].map fun q => pointIndex ⟨c, q⟩) =
    List.range 12 ∧
  (∀ lot, [SweepKind.periodClose, .rollout lot, .overdue].map SweepKind.code = List.range 3) ∧
  [Origin.request, .deadline].map Origin.code = List.range 2 ∧
  [Ending.completed, .cancelled, .broken, .abandoned].map Ending.code = List.range 4 ∧
  (∀ w, [Engine.idle, .running w].map Engine.code = List.range 2) ∧
  [Level.inactive, .active].map levelCode = List.range 2 ∧
  [ResetCause.powerOn, .resetLine].map ResetCause.code = List.range 2 ∧
  [SlotOutcome.empty, .skippedLocked, .retired].map SlotOutcome.code = List.range 3 ∧
  [AttnMode.level, .pulse].map AttnMode.code = List.range 2 ∧
  (∀ b, flag b = [if b then 1 else 0]) ∧
  -- Table 11-3
  (∀ p, PolicyInRange p → let b := policyBytes p
    (∀ q, (read2 b 0).testBit (pointIndex q) = p.used.pick q ∧
      readSigned2 b (2 + 8 * pointIndex q) = (p.limits.pick q).actionLow ∧
      readSigned2 b (4 + 8 * pointIndex q) = (p.limits.pick q).warnLow ∧
      readSigned2 b (6 + 8 * pointIndex q) = (p.limits.pick q).warnHigh ∧
      readSigned2 b (8 + 8 * pointIndex q) = (p.limits.pick q).actionHigh ∧
      read2 b (98 + 2 * pointIndex q) = p.driftThreshold.pick q) ∧
    read1 b 122 = p.filterShift ∧ read1 b 123 = p.deadband ∧ read1 b 124 = p.runLength ∧
    read1 b 125 = p.settleCount ∧ read1 b 126 = p.clearCount ∧ read1 b 127 = p.overdueLimit ∧
    causesOf (read1 b 128) = p.noticeMask) ∧
  -- Table 11-6
  (∀ v : Verdict, (∀ ticket, v.ticket = some ticket → ticket < 256) → v.store < 65536 → v.slot < 256 →
      (∀ n, v.lane = some n → n < 65536) → let b := verdictBytes v
    read1 b 0 = v.ticket.getD 0 ∧ (read1 b 1).testBit 0 = v.lane.isSome ∧
    (read1 b 1).testBit 1 = v.ticket.isSome ∧ read2 b 2 = v.store ∧ read1 b 4 = v.slot ∧
    read2 b 5 = v.lane.getD 0 ∧
    (∀ i, i < 12 → (read2 b 8).testBit i = v.clipped.toList.getD i false) ∧
    (∀ reason, v.body = .refused reason → read1 b 7 = reason.code) ∧
    (∀ o after x entries, v.body = .evaluated o after x entries → entries.length ≤ 12 →
      read1 b 7 = 0 ∧ read1 b 10 = o.code ∧ read1 b 11 = after.code ∧ read1 b 12 = x.code ∧
      read1 b 13 = entries.length ∧
      (∀ i p r, entries[i]? = some (p, r) → -1000 ≤ r.deviation → r.deviation ≤ 1000 → -16000 ≤ r.trend →
        r.trend ≤ 16000 → -15 ≤ r.runCount → r.runCount ≤ 15 →
        read1 b (14 + 8 * i) = pointIndex p ∧ read1 b (15 + 8 * i) = r.zone.code ∧
        readSigned2 b (16 + 8 * i) = r.deviation ∧ readSigned2 b (18 + 8 * i) = r.trend ∧
        readSigned1 b (20 + 8 * i) = r.runCount ∧ (read1 b (21 + 8 * i)).testBit 0 = r.gross ∧
        (read1 b (21 + 8 * i)).testBit 1 = r.clipped))) ∧
  -- Table 11-7
  (∀ n l, n < 1536 → LaneInRange l → l.activeLot < 16777216 → (∀ lot, l.pendingLot = some lot → lot < 16777216) →
      let b := laneBytes n l
    read2 b 0 = n ∧ read2 b 2 = l.store ∧ read1 b 4 = l.slot ∧ read1 b 5 = l.type ∧ read1 b 6 = l.state.code ∧
    read1 b 7 = l.settleProgress ∧ read1 b 8 = l.cleanProgress ∧ read3 b 9 = l.activeLot ∧
    read3 b 12 = l.pendingLot.getD 0 ∧
    (∀ p, readSigned2 b (15 + 2 * pointIndex p) = l.offsets.pick p ∧
      readSigned2 b (39 + 2 * pointIndex p) = (l.trend.pick p).value ∧
      (read2 b 63).testBit (pointIndex p) = (l.trend.pick p).seeded ∧
      readSigned1 b (65 + pointIndex p) = l.runCount.pick p ∧
      (∀ d, l.lastDeviation.pick p = some d → readSigned2 b (77 + 2 * pointIndex p) = d) ∧
      (l.lastDeviation.pick p = none → read2 b (77 + 2 * pointIndex p) = 0x8000)) ∧
    read2 b 101 = l.createdDay ∧ read2 b 103 = l.lastDay.getD 0 ∧ read1 b 105 = l.lastDay.isSome.toNat ∧
    read1 b 106 = l.rerunsToday ∧ weekdaysOf (read1 b 107) = l.restMask ∧ (read1 b 108).testBit 0 = l.locked ∧
    (read1 b 108).testBit 1 = l.autoCross ∧ (read1 b 108).testBit 2 = l.autoClear ∧
    (read1 b 108).testBit 3 = l.overdue ∧ causesOf (read1 b 109) = l.causes ∧
    read1 b 110 = l.joined.isSome.toNat ∧
    (∀ e ∈ [(111, l.counters), (120, l.summary)],
      read2 b e.1 = e.2.readings ∧ read1 b (e.1 + 2) = e.2.warns ∧ read1 b (e.1 + 3) = e.2.driftEntries ∧
      read1 b (e.1 + 4) = e.2.actionEntries ∧ read1 b (e.1 + 5) = e.2.reruns ∧ read1 b (e.1 + 6) = e.2.refusals ∧
      read1 b (e.1 + 7) = e.2.overdueRaises ∧ read1 b (e.1 + 8) = e.2.crossovers) ∧
    read2 b 129 = l.periodTag) ∧
  -- Table 11-8
  (∀ r : Notice, r.lane < 65536 → r.store < 65536 → r.stamp.day < 65536 → r.stamp.minute < 65536 →
      let b := noticeBytes r
    read2 b 0 = r.lane ∧ read2 b 2 = r.store ∧ read1 b 4 = r.slot ∧ causesOf (read1 b 5) = r.causes ∧
    read1 b 6 = r.state.code ∧ (read1 b 7).testBit 0 = r.locked ∧ (read1 b 7).testBit 1 = r.autoCross ∧
    (read1 b 7).testBit 2 = r.autoClear ∧ (read1 b 7).testBit 3 = r.overdue ∧ read2 b 8 = r.stamp.day ∧
    read2 b 10 = r.stamp.minute)

/-! ### The queues and the evaluation (chapters 4 and 10) -/

/-- SUBMIT and COLLECT (R65, R176, R179). -/
def Obligations.SubmitAppendsAndCollectTakesTheHead : Prop :=
  (∀ (s : State) (rep : StripReport), Takes .strip (.submit rep) s →
    (24 ≤ s.queues.intake.length → exec (.submit rep) s = .next (s.hold .strip (.bare .queueFull))) ∧
    (s.queues.intake.length < 24 → exec (.submit rep) s = .next ({ s with queues :=
        { s.queues with
          intake := s.queues.intake ++ [({ ticket := s.queues.ticketCounter, report := {
            store := rep.store, slot := rep.slot, lot := rep.lot, day := rep.day
            densities := Patches.map (Option.map fun v : Nat => min v 4000) rep.densities
            clipped := Patches.map (fun d : Option Nat => d.any fun v => 4000 < v) rep.densities } } : QueuedReport)]
          ticketCounter := (s.queues.ticketCounter + 1) % 256 } }.hold .strip
        (.accepted s.queues.ticketCounter (s.queues.intake.length + 1))))) ∧
  (∀ s : State, Takes .strip .collect s →
    (s.queues.verdicts = [] → exec .collect s = .next (s.hold .strip (.bare .none))) ∧
    (∀ v rest, s.queues.verdicts = v :: rest → exec .collect s =
      .next ({ s with queues := { s.queues with verdicts := rest } }.hold .strip
        (.done (.collected v rest.length)))))

/-- The engine takes nothing without a report, without room, or while the part clears or is in reset; otherwise it
takes the head report and pushes one verdict, and touches no lane but the report's (R67, R68, R178). -/
def Obligations.EvaluationTakesOneReport : Prop :=
  (∀ s : State, ¬Awake s ∨ s.queues.intake = [] ∨ 24 ≤ s.queues.verdicts.length → exec .evaluation s = .next s) ∧
  (∀ (s : State) (q : QueuedReport) (rest : List QueuedReport), LanesServed s → Awake s →
    s.queues.verdicts.length < 24 → s.queues.intake = q :: rest →
    ∃ (t : State) (v : Verdict), exec .evaluation s = .next t ∧
      t.queues = ⟨rest, s.queues.verdicts ++ [v], s.queues.ticketCounter⟩ ∧
      v.ticket = some q.ticket ∧ v.store = q.report.store ∧ v.slot = q.report.slot ∧
      v.clipped = q.report.clipped ∧ v.lane = (s.laneAt q.report.store q.report.slot).map Prod.fst ∧
      (∀ n, v.lane = some n → OnlyLane n s t) ∧
      (v.lane = none → v.body = .refused .noLane ∧ t = { s with queues := t.queues }))

/-- HELD, STALE, AHEAD and RERUN LIMIT: the refusals counter and the verdict, and nothing else (R69 to R72, R75). -/
def Obligations.ReportsRefusedByTheirDay : Prop :=
  ∀ (s : State) (q : QueuedReport) (rest : List QueuedReport) (n : Nat) (l : Lane) (pol : Policy) (reason : Reason),
    Judges s q rest n l pol →
    (reason = .held ∧ l.state = .held ∨
      l.state ≠ .held ∧
        (reason = .stale ∧ q.report.day < l.lastDay.getD l.createdDay ∨
         reason = .ahead ∧ l.lastDay.getD l.createdDay ≤ q.report.day ∧ s.clock.day < q.report.day ∨
         reason = .rerunLimit ∧ q.report.day ≤ s.clock.day ∧ l.lastDay = some q.report.day ∧ l.rerunsToday = 2)) →
    exec .evaluation s = .next ({ s with queues := ⟨rest, s.queues.verdicts ++
        [(⟨some q.ticket, q.report.store, q.report.slot, some n, q.report.clipped, .refused reason⟩ : Verdict)],
        s.queues.ticketCounter⟩ }.putLane n
      { l with counters := { l.counters with refusals := min (l.counters.refusals + 1) 255 } })

/-- LOT MISMATCH, LOT UNKNOWN, and NO DATA without a crossover (R58, R59, R74, R75). -/
def Obligations.ReportsRefusedForLotOrData : Prop :=
  ∀ (s : State) (q : QueuedReport) (rest : List QueuedReport) (n : Nat) (l : Lane) (pol : Policy),
    Judges s q rest n l pol → PassesDayChecks s l q.report.day →
    ((∀ c, ¬ResolvesTo s l q.report.lot c) →
      exec .evaluation s = .next ((({ s with queues := { s.queues with intake := rest } }.putLane n
          { l with counters := { l.counters with refusals := min (l.counters.refusals + 1) 255 } }).raise
            pol.noticeMask n .lotRefused).pushVerdict
          ⟨some q.ticket, q.report.store, q.report.slot, some n, q.report.clipped,
            .refused (if (Table.find q.report.lot s.lots.entries).isSome then .lotMismatch else .lotUnknown)⟩)) ∧
    (q.report.lot = l.activeLot → (∀ p v, ¬EvaluatedAt pol q.report p v) →
      exec .evaluation s = .next (({ s with queues := { s.queues with intake := rest } }.putLane n
          { l with counters := { l.counters with refusals := min (l.counters.refusals + 1) 255 } }).pushVerdict
          ⟨some q.ticket, q.report.store, q.report.slot, some n, q.report.clipped, .refused .noData⟩))

/-- A crossover: the lane's lots, the users of the lots and the cause, whether or not the reading is then evaluated;
and the whole lane, its causes, its join and the queues when the reading is refused NO DATA (R56, R57, R60, R74,
R161, Table 3-2). -/
def Obligations.CrossoversMoveTheLots : Prop :=
  ∀ (s : State) (q : QueuedReport) (rest : List QueuedReport) (n : Nat) (l : Lane) (pol : Policy) (c : LotCase),
    Judges s q rest n l pol → PassesDayChecks s l q.report.day → ResolvesTo s l q.report.lot c → c ≠ .active →
    (Table.find q.report.lot s.lots.entries).isSome = true →
    ∃ (t : State) (l' : Lane), exec .evaluation s = .next t ∧ OnlyLane n s t ∧ t.lane n = some l' ∧
      l'.activeLot = q.report.lot ∧ l'.pendingLot = none ∧
      l'.counters.crossovers = min (l.counters.crossovers + 1) 255 ∧
      (passes pol.noticeMask .crossover = true → l'.causes.has .crossover = true) ∧
      t.lots.count = s.lots.count ∧
      (∀ m, Table.find m t.lots.entries = (Table.find m s.lots.entries).map fun e => { e with
        users := e.users - (if m = l.activeLot then 1 else 0) -
          (if c = .auto ∧ l.pendingLot = some m then 1 else 0) +
          (if c = .auto ∧ m = q.report.lot then 1 else 0) }) ∧
      ((∀ p v, ¬EvaluatedAt pol q.report p v) →
        l' = { l with
          activeLot := q.report.lot, pendingLot := none, runCount := Points.all 0,
          counters := { l.counters with
            crossovers := min (l.counters.crossovers + 1) 255, refusals := min (l.counters.refusals + 1) 255 },
          causes := l'.causes, joined := l'.joined } ∧
        (∀ x, l'.causes.has x = (l.causes.has x || (passes pol.noticeMask .crossover && decide (x = .crossover)))) ∧
        l'.joined = (if l.causes = .empty ∧ passes pol.noticeMask .crossover = true then
          some ⟨s.clock.day, s.clock.minute⟩ else l.joined) ∧
        t.attention = (if l.causes = .empty ∧ passes pol.noticeMask .crossover = true then s.attention.join n
          else s.attention) ∧
        t.queues = ⟨rest, s.queues.verdicts ++
          [⟨some q.ticket, q.report.store, q.report.slot, some n, q.report.clipped, .refused .noData⟩],
          s.queues.ticketCounter⟩)

/-- The per-point fields after an evaluated reading, each point by itself (R78, R79, R87, R101), and the formulas
they come from: the plot values and when they are absent, the aims, the deviations and the use of clipped patches
(R76 to R78). -/
def Obligations.ReadingsWriteTheirPoints : Prop :=
  (∀ (s : State) (q : QueuedReport) (rest : List QueuedReport) (n : Nat) (l : Lane) (pol : Policy) (c : LotCase)
    (e : Lot), Accepts s q rest n l pol c e →
    ∃ (t : State) (l' : Lane), exec .evaluation s = .next t ∧ t.lane n = some l' ∧ ∀ p : Point,
      (∀ v, EvaluatedAt pol q.report p v →
        l'.lastDeviation.pick p = some (deviationOf e l p v) ∧
        l'.trend.pick p = ⟨newTrend pol.filterShift (l.trend.pick p) (deviationOf e l p v), true⟩ ∧
        l'.runCount.pick p = newRunCount pol.deadband (runCountMet c l p) (deviationOf e l p v)) ∧
      ((∀ v, ¬EvaluatedAt pol q.report p v) →
        l'.lastDeviation.pick p = none ∧ l'.trend.pick p = l.trend.pick p ∧
        l'.runCount.pick p = runCountMet c l p)) ∧
  (∀ (d : Strip (Option Nat)) (v : Int),
    (plotValue d .fog = some v ↔ ∃ base : Nat, d.base = some base ∧ v = base) ∧
    (plotValue d .speed = some v ↔ ∃ base low : Nat, d.base = some base ∧ d.low = some low ∧ v = low - base) ∧
    (plotValue d .contrast = some v ↔ ∃ low high : Nat, d.low = some low ∧ d.high = some high ∧ v = high - low) ∧
    (plotValue d .dmax = some v ↔ ∃ top : Nat, d.max = some top ∧ v = top)) ∧
  (∀ d : Strip (Option Nat),
    (plotValue d .fog = none ↔ d.base = none) ∧
    (plotValue d .speed = none ↔ d.base = none ∨ d.low = none) ∧
    (plotValue d .contrast = none ↔ d.low = none ∨ d.high = none) ∧
    (plotValue d .dmax = none ↔ d.max = none)) ∧
  (∀ (refs : Patches Nat) (offsets : Points Int) (c : Channel), let k := refs.get c
    aim refs offsets ⟨c, .fog⟩ = k.base + offsets.pick ⟨c, .fog⟩ ∧
    aim refs offsets ⟨c, .speed⟩ = k.low - k.base + offsets.pick ⟨c, .speed⟩ ∧
    aim refs offsets ⟨c, .contrast⟩ = k.high - k.low + offsets.pick ⟨c, .contrast⟩ ∧
    aim refs offsets ⟨c, .dmax⟩ = k.max + offsets.pick ⟨c, .dmax⟩) ∧
  (∀ (e : Lot) (l : Lane) (p : Point) (v : Int), let raw := v - aim e.references l.offsets p
    deviationOf e l p v = if raw < -1000 then -1000 else if 1000 < raw then 1000 else raw) ∧
  (∀ k : Strip Bool,
    (usesClipped k .fog = true ↔ k.base = true) ∧
    (usesClipped k .speed = true ↔ k.base = true ∨ k.low = true) ∧
    (usesClipped k .contrast = true ↔ k.low = true ∨ k.high = true) ∧
    (usesClipped k .dmax = true ↔ k.max = true))

/-- The day fields, the OVERDUE mark and the counters after an evaluated reading, and the fields no reading writes
(R80, R120); and, when the report's lot is the lane's active lot, the lane's lots, its crossovers counter and the
Lot Table, which stand (R55). -/
def Obligations.ReadingsWriteTheirDay : Prop :=
  ∀ (s : State) (q : QueuedReport) (rest : List QueuedReport) (n : Nat) (l : Lane) (pol : Policy) (c : LotCase)
    (e : Lot), Accepts s q rest n l pol c e →
    ∃ (t : State) (l' : Lane), exec .evaluation s = .next t ∧ t.lane n = some l' ∧
      l'.lastDay = some q.report.day ∧ l'.overdue = false ∧
      l'.rerunsToday = (if l.lastDay = some q.report.day then l.rerunsToday + 1 else 0) ∧
      l'.counters.readings = min (l.counters.readings + 1) 65535 ∧
      l'.counters.reruns = (if l.lastDay = some q.report.day then min (l.counters.reruns + 1) 255
        else l.counters.reruns) ∧
      l'.counters.refusals = l.counters.refusals ∧ l'.counters.overdueRaises = l.counters.overdueRaises ∧
      l'.store = l.store ∧ l'.slot = l.slot ∧ l'.type = l.type ∧ l'.offsets = l.offsets ∧
      l'.createdDay = l.createdDay ∧ l'.restMask = l.restMask ∧ l'.locked = l.locked ∧
      l'.autoCross = l.autoCross ∧ l'.autoClear = l.autoClear ∧ l'.summary = l.summary ∧ l'.periodTag = l.periodTag ∧
      (c = .active → l'.activeLot = l.activeLot ∧ l'.pendingLot = l.pendingLot ∧
        l'.counters.crossovers = l.counters.crossovers ∧ t.lots = s.lots)

/-- The verdict of an evaluated reading, its transition with the counters of R120, and its causes with their one
join (R81, R104, R111, R120, R162). -/
def Obligations.ReadingsMoveTheLane : Prop :=
  ∀ (s : State) (q : QueuedReport) (rest : List QueuedReport) (n : Nat) (l : Lane) (pol : Policy) (c : LotCase)
    (e : Lot), Accepts s q rest n l pol c e →
    ∃ (t : State) (l' : Lane) (entries : List (Point × PointResult)), exec .evaluation s = .next t ∧ OnlyLane n s t ∧ t.lane n = some l' ∧
      entries.map Prod.fst = Point.order.filter (fun p => pol.used.pick p &&
        (plotValue (q.report.densities.get p.channel) p.quantity).isSome) ∧
      (∀ p r, (p, r) ∈ entries → ∃ v, EvaluatedAt pol q.report p v ∧ r.deviation = deviationOf e l p v ∧
        (r.gross = true ↔ deviationOf e l p v ≠ v - aim e.references l.offsets p) ∧
        r.clipped = usesClipped (q.report.clipped.get p.channel) p.quantity ∧
        r.zone = zoneOf (pol.limits.pick p) r.deviation ∧ r.trend = (l'.trend.pick p).value ∧
        r.runCount = l'.runCount.pick p) ∧
      t.queues = ⟨rest, s.queues.verdicts ++ [⟨some q.ticket, q.report.store, q.report.slot, some n,
        q.report.clipped, .evaluated (outcomeOf pol entries) l'.state c.crossover entries⟩],
        s.queues.ticketCounter⟩ ∧
      l'.state = (moveLane pol l (outcomeOf pol entries)).state ∧
      l'.settleProgress = (moveLane pol l (outcomeOf pol entries)).settle ∧
      l'.cleanProgress = (moveLane pol l (outcomeOf pol entries)).clean ∧
      l'.counters.warns = (if outcomeOf pol entries = .warn then min (l.counters.warns + 1) 255
        else l.counters.warns) ∧
      l'.counters.driftEntries = (if (moveLane pol l (outcomeOf pol entries)).cause = some .drift then
        min (l.counters.driftEntries + 1) 255 else l.counters.driftEntries) ∧
      l'.counters.actionEntries = (if (moveLane pol l (outcomeOf pol entries)).cause = some .action then
        min (l.counters.actionEntries + 1) 255 else l.counters.actionEntries) ∧
      (∀ x, l'.causes.has x = (l.causes.has x || (passes pol.noticeMask x && decide
        (x ∈ c.causes ++ (moveLane pol l (outcomeOf pol entries)).cause.toList)))) ∧
      t.attention = (if l.causes = .empty ∧ l'.causes ≠ .empty then s.attention.join n else s.attention) ∧
      l'.joined = (if l.causes = .empty ∧ l'.causes ≠ .empty then some ⟨s.clock.day, s.clock.minute⟩
        else l.joined)

/-- PROVE answers DONE, whatever its trial finds, and changes nothing but its framer (R83 to R85). -/
def Obligations.ProveChangesNothing : Prop :=
  ∀ (s : State) (rep : StripReport), Takes .supervision (.prove rep) s →
    (LanesServed s → ∃ body, exec (.prove rep) s = .next (s.hold .supervision (.done body))) ∧
    (∀ t, exec (.prove rep) s = .next t → ∃ body, t = s.hold .supervision (.done body))

/-- The trial verdict is the one the evaluation of the same report would give at that moment, but for the ticket,
and the reported state and progress are those the evaluation would leave (R84, R127). The lot resolution case is none
when the trial ends before check 6 and otherwise the case that decides, whatever waits in the queues (R62, R84). -/
def Obligations.ProveForetellsTheEvaluation : Prop :=
  (∀ (s : State) (rep : StripReport), Takes .supervision (.prove rep) s → LanesServed s →
    ∃ lotCase trial v, exec (.prove rep) s = .next (s.hold .supervision (.done (.proved lotCase trial v))) ∧
      TrialCase s rep lotCase) ∧
  ∀ (s : State) (rep : StripReport) (q : QueuedReport) (rest : List QueuedReport),
    Takes .supervision (.prove rep) s → LanesServed s → s.queues.verdicts.length < 24 →
    s.queues.intake = q :: rest → q.report = takeIn rep →
    ∃ (t : State) (v : Verdict) (lotCase : Option LotCase) (trial : Option (LaneState × Nat × Nat)), exec .evaluation s = .next t ∧ t.queues.verdicts = s.queues.verdicts ++ [v] ∧
      exec (.prove rep) s = .next (s.hold .supervision (.done (.proved lotCase trial { v with ticket := none }))) ∧
      TrialCase s rep lotCase ∧
      (trial = none ↔ ∃ reason, v.body = .refused reason) ∧
      (∀ st settle clean, trial = some (st, settle, clean) → ∃ n l', v.lane = some n ∧ t.lane n = some l' ∧
        l'.state = st ∧ l'.settleProgress = settle ∧ l'.cleanProgress = clean)

/-! ### The arithmetic (chapters 4 to 7) -/

/-- The step of the trend filter (R93, Table 5-3). -/
def Obligations.FilterStepsRoundToNearest : Prop :=
  (∀ (k : Nat) (d : Int), (filterStep k d).natAbs = (d.natAbs + 2 ^ k / 2) / 2 ^ k ∧
    (0 ≤ d → 0 ≤ filterStep k d) ∧ (d ≤ 0 → filterStep k d ≤ 0) ∧ filterStep k 0 = 0) ∧
  (∀ (k : Nat) (d : Int), 1 ≤ k → 2 * (2 ^ k * filterStep k d - d).natAbs ≤ 2 ^ k ∧
    (2 * (2 ^ k * filterStep k d - d).natAbs = 2 ^ k → d.natAbs < 2 ^ k * (filterStep k d).natAbs) ∧
    filterStep k (-d) = -filterStep k d) ∧
  [112, 66, 63, 49, 2, 1, -2, -6, -257].map (filterStep 2) = [28, 17, 16, 12, 1, 0, -1, -2, -64] ∧
  (∀ (k : Nat) (e d : Int), newTrend k ⟨e, true⟩ d = e + filterStep k (16 * d - e)) ∧
  (∀ (rs : Points (Option PointResult)) (l : Lane) (p : Point) (r : PointResult), rs.pick p = some r →
    (writePoints rs l).trend.pick p = ⟨r.trend, true⟩)

/-- Every trend stays in its range, and each new trend lies between its previous value and its target (R94). -/
def Obligations.TrendsStayBetweenValueAndTarget : Prop :=
  (∀ (k : Nat) (e : Trend) (d : Int), 1 ≤ k → -16000 ≤ e.value → e.value ≤ 16000 →
    (e.seeded = false → e.value = 0) → -1000 ≤ d → d ≤ 1000 →
    min e.value (16 * d) ≤ newTrend k e d ∧ newTrend k e d ≤ max e.value (16 * d) ∧
    -16000 ≤ newTrend k e d ∧ newTrend k e d ≤ 16000 ∧
    (e.seeded = false → newTrend k e d = 16 * d) ∧
    (e.seeded = true → (newTrend k e d - e.value).natAbs ≤ (16 * d - e.value).natAbs) ∧
    (0 ≤ e.value → 0 ≤ d → 0 ≤ newTrend k e d) ∧ (e.value ≤ 0 → d ≤ 0 → newTrend k e d ≤ 0)) ∧
  (∀ s t : State, Sound s → step s = .next t → ∀ n l p, t.lane n = some l →
    -16000 ≤ (l.trend.pick p).value ∧ (l.trend.pick p).value ≤ 16000)

/-- Tables 5-1 and 5-5 and the table of R98. -/
def Obligations.ZonesRunCountsAndOutcomes : Prop :=
  (∀ (l : Limits) (d : Int), l.actionLow ≤ l.warnLow → l.warnLow ≤ 0 → 0 ≤ l.warnHigh → l.warnHigh ≤ l.actionHigh →
    (zoneOf l d = .actionLow ↔ d < l.actionLow) ∧ (zoneOf l d = .warnLow ↔ l.actionLow ≤ d ∧ d < l.warnLow) ∧
    (zoneOf l d = .centre ↔ l.warnLow ≤ d ∧ d ≤ l.warnHigh) ∧
    (zoneOf l d = .warnHigh ↔ l.warnHigh < d ∧ d ≤ l.actionHigh) ∧ (zoneOf l d = .actionHigh ↔ l.actionHigh < d)) ∧
  (∀ (b : Nat) (r d : Int), -15 ≤ r → r ≤ 15 →
    ((b : Int) < d → newRunCount b r d = if 0 < r then (if r = 15 then 15 else r + 1) else 1) ∧
    (d < -(b : Int) → newRunCount b r d = if r < 0 then (if r = -15 then -15 else r - 1) else -1) ∧
    (-(b : Int) ≤ d → d ≤ b → newRunCount b r d = 0)) ∧
  (∀ (pol : Policy) (es : List (Point × PointResult)),
    let action := ∃ e ∈ es, e.2.zone = .actionLow ∨ e.2.zone = .actionHigh
    let flagged := ∃ e ∈ es, 16 * pol.driftThreshold.pick e.1 ≤ e.2.trend.natAbs ∨
      pol.runLength ≠ 0 ∧ pol.runLength ≤ e.2.runCount.natAbs
    let warn := ∃ e ∈ es, e.2.zone = .warnLow ∨ e.2.zone = .warnHigh
    (outcomeOf pol es = .limit ↔ action) ∧ (outcomeOf pol es = .trend ↔ ¬action ∧ flagged) ∧
    (outcomeOf pol es = .warn ↔ ¬action ∧ ¬flagged ∧ warn) ∧
    (outcomeOf pol es = .clean ↔ ¬action ∧ ¬flagged ∧ ¬warn))

/-- The transitions of SETTLING, WATCH, DRIFT and ACTION lanes (R112, R113, R115 to R117). -/
def Obligations.LaneStatesMoveByOutcome : Prop :=
  ∀ (pol : Policy) (l : Lane),
    (l.state = .settling → moveLane pol l .limit = ⟨.action, 0, 0, some .action⟩ ∧
      ∀ o, o ≠ .limit → moveLane pol l o =
        if pol.settleCount ≤ min (l.settleProgress + 1) 8 then ⟨.steady, 0, 0, none⟩
        else ⟨.settling, min (l.settleProgress + 1) 8, 0, none⟩) ∧
    (l.state = .watch → moveLane pol l .limit = ⟨.action, 0, 0, some .action⟩ ∧
      moveLane pol l .trend = ⟨.drift, 0, 0, some .drift⟩ ∧ moveLane pol l .warn = ⟨.drift, 0, 0, some .drift⟩ ∧
      moveLane pol l .clean = ⟨.steady, 0, 0, none⟩) ∧
    (l.state = .drift → moveLane pol l .limit = ⟨.action, 0, 0, some .action⟩ ∧
      moveLane pol l .trend = ⟨.drift, 0, 0, none⟩ ∧ moveLane pol l .warn = ⟨.drift, 0, 0, none⟩) ∧
    (l.state = .action → ∀ o, o ≠ .clean → moveLane pol l o = ⟨.action, 0, 0, none⟩) ∧
    (l.state = .drift ∨ l.state = .action → moveLane pol l .clean =
      if min (l.cleanProgress + 1) 8 < pol.clearCount then ⟨l.state, 0, min (l.cleanProgress + 1) 8, none⟩
      else if l.autoClear then ⟨.steady, 0, 0, some .cleared⟩ else ⟨l.state, 0, pol.clearCount, none⟩)

/-- The table of R114: what each outcome makes of a STEADY lane, its progress counts, the cause and the entry
counters. -/
def Obligations.SteadyLanesMoveByOutcome : Prop :=
  ∀ (pol : Policy) (l : Lane), l.state = .steady →
    (∀ o, (writeMove (moveLane pol l o) o l).settleProgress = 0 ∧
      (writeMove (moveLane pol l o) o l).cleanProgress = 0) ∧
    ((writeMove (moveLane pol l .limit) .limit l).state = .action ∧ (moveLane pol l .limit).cause = some .action ∧
      (writeMove (moveLane pol l .limit) .limit l).counters =
        { l.counters with actionEntries := min (l.counters.actionEntries + 1) 255 }) ∧
    ((writeMove (moveLane pol l .trend) .trend l).state = .drift ∧ (moveLane pol l .trend).cause = some .drift ∧
      (writeMove (moveLane pol l .trend) .trend l).counters =
        { l.counters with driftEntries := min (l.counters.driftEntries + 1) 255 }) ∧
    ((writeMove (moveLane pol l .warn) .warn l).state = .watch ∧ (moveLane pol l .warn).cause = some .watch ∧
      (writeMove (moveLane pol l .warn) .warn l).counters =
        { l.counters with warns := min (l.counters.warns + 1) 255 }) ∧
    (writeMove (moveLane pol l .clean) .clean l).state = .steady ∧ (moveLane pol l .clean).cause = none ∧
      (writeMove (moveLane pol l .clean) .clean l).counters = l.counters

/-- The two-part count of R139 is the count of expected days strictly between, and the missed-strip count is the
sum of R138. -/
def Obligations.MissedStripsCountTheDaysBetween : Prop :=
  ∀ (c : DayClock) (l : Lane),
    let expected := fun d => !l.restMask.has ((d + c.weekdayBase) % 7)
    let since := l.lastDay.getD l.createdDay
    let between := ((List.range c.day).filter fun d => decide (since < d) && expected d).length
    daysBetween c l.restMask since = between ∧
    missedStrips c l = min (between +
      if expected c.day = true ∧ c.deadline ≤ c.minute ∧ l.lastDay ≠ some c.day then 1 else 0) 255

/-- Every stored policy is in range, a policy in range is stored as it is, and the ADJUSTED indication tells whether
anything but the ACTION bit was changed (R29 to R36). And the value stored for each field of any request: the nearest
end of its range, the warn limits then brought to the action limits (R29), the run length by the table of R32, the
flags as requested (R28), and the causes as requested with ACTION (R35). -/
def Obligations.StoredPoliciesAreInRange : Prop :=
  (∀ (b : Policy), PolicyInRange (storedPolicy b) ∧ (PolicyInRange b → storedPolicy b = b) ∧
    (adjusted b (storedPolicy b) = false ↔ PolicyInRange { b with noticeMask := b.noticeMask.add .action })) ∧
  (∀ (b : Policy), (storedPolicy b).used = b.used ∧
    (∀ p, let asked := b.limits.pick p
      let stored := (storedPolicy b).limits.pick p
      let low := fun x : Int => if x < -1000 then -1000 else if 0 < x then 0 else x
      let high := fun x : Int => if x < 0 then 0 else if 1000 < x then 1000 else x
      stored.actionLow = low asked.actionLow ∧ stored.actionHigh = high asked.actionHigh ∧
      stored.warnLow = (if low asked.warnLow < stored.actionLow then stored.actionLow else low asked.warnLow) ∧
      stored.warnHigh =
        (if stored.actionHigh < high asked.warnHigh then stored.actionHigh else high asked.warnHigh)) ∧
    (∀ p, (storedPolicy b).driftThreshold.pick p =
      if b.driftThreshold.pick p = 0 then 1 else min (b.driftThreshold.pick p) 1000) ∧
    (storedPolicy b).filterShift = (if b.filterShift = 0 then 1 else min b.filterShift 4) ∧
    (storedPolicy b).deadband = min b.deadband 100 ∧
    (b.runLength = 0 → (storedPolicy b).runLength = 0) ∧
    (b.runLength = 1 ∨ b.runLength = 2 → (storedPolicy b).runLength = 3) ∧
    (3 ≤ b.runLength → b.runLength ≤ 15 → (storedPolicy b).runLength = b.runLength) ∧
    (15 < b.runLength → (storedPolicy b).runLength = 15) ∧
    (storedPolicy b).settleCount = (if b.settleCount = 0 then 1 else min b.settleCount 8) ∧
    (storedPolicy b).clearCount = (if b.clearCount = 0 then 1 else min b.clearCount 8) ∧
    (storedPolicy b).overdueLimit = (if b.overdueLimit = 0 then 1 else min b.overdueLimit 7) ∧
    (∀ c, (storedPolicy b).noticeMask.has c = (b.noticeMask.has c || decide (c = .action))))

/-! ### Lanes and the directory (chapters 1 and 6) -/

/-- CREATE LANE when its six checks pass (R6, R12, R13, R27, R43, Table 1-2). -/
def Obligations.CreateLaneMakesTheLane : Prop :=
  ∀ (s : State) (c : LaneCreation) (i : SlotNumber) (type : ProcessType) (active n : Nat),
    Takes .supervision (.createLane c) s → PoolSound s → DirectorySound s →
    c.store ≠ 0 → c.slot = i → c.type = type →
    ((siteSlots c.store s.store.directory).bind fun x => x.get i) = none →
    (s.policies.get type).policy.isSome = true → lotInState type .current s.lots.entries = some active →
    n < 1536 → s.lane n = none → (∀ m, m < n → (s.lane m).isSome = true) →
    (siteSlots c.store s.store.directory = none → s.store.directory.length < 512) →
    ∃ (t : State) (l : Lane), exec (.createLane c) s = .next (t.hold .supervision (.done (.laneRecord n l))) ∧
      l = { store := c.store, slot := i, type := type, state := .settling, settleProgress := 0, cleanProgress := 0,
            activeLot := active, pendingLot := lotInState type .rolling s.lots.entries,
            offsets := l.offsets, trend := Points.all ⟨0, false⟩, runCount := Points.all 0,
            lastDeviation := Points.all none, createdDay := s.clock.day, lastDay := none, rerunsToday := 0,
            restMask := c.restMask, locked := false, autoCross := c.autoCross.getD true,
            autoClear := c.autoClear.getD true, overdue := false, causes := .empty, joined := none,
            counters := ⟨0, 0, 0, 0, 0, 0, 0, 0⟩, summary := ⟨0, 0, 0, 0, 0, 0, 0, 0⟩,
            periodTag := s.sweeps.periodNumber } ∧
      (∀ p, l.offsets.pick p = match c.offsets with
        | none => 0
        | some o => max (-500) (min 500 (o.pick p))) ∧
      t.lane n = some l ∧ (∀ m, m ≠ n → t.lane m = s.lane m) ∧
      t.store.occupiedLanes = s.store.occupiedLanes + 1 ∧
      t.store.siteCount = s.store.siteCount + (if siteSlots c.store s.store.directory = none then 1 else 0) ∧
      siteSlots c.store t.store.directory =
        some (((siteSlots c.store s.store.directory).getD Slots.vacant).put i (some n)) ∧
      (∀ b, b ≠ c.store → siteSlots b t.store.directory = siteSlots b s.store.directory) ∧
      (∀ u, t.policies.get u = { s.policies.get u with
        laneCount := (s.policies.get u).laneCount + if u = type then 1 else 0 }) ∧
      (∀ m, Table.find m t.lots.entries = (Table.find m s.lots.entries).map fun e => { e with
        users := e.users + (if m = active then 1 else 0) +
          (if lotInState type .rolling s.lots.entries = some m then 1 else 0) }) ∧
      t.lots.count = s.lots.count ∧
      t.pending = s.pending ∧ t.lines = s.lines ∧ t.ports = s.ports ∧ t.queues = s.queues ∧ t.clock = s.clock ∧
      t.sweeps = s.sweeps ∧ t.attention = s.attention ∧ t.status = s.status

/-- The refusals of CREATE LANE, each when the checks before it pass (R12). -/
def Obligations.CreateLaneRefusesInOrder : Prop :=
  ∀ (s : State) (c : LaneCreation), Takes .supervision (.createLane c) s →
    (c.store = 0 ∨ 3 < c.slot ∨ 7 < c.type →
      exec (.createLane c) s = .next (s.hold .supervision (.bare .malformed))) ∧
    ∀ (i : SlotNumber) (type : ProcessType), c.store ≠ 0 → c.slot = i → c.type = type →
      ((((siteSlots c.store s.store.directory).bind fun x => x.get i) ≠ none →
        exec (.createLane c) s = .next (s.hold .supervision (.bare .laneExists))) ∧
      (((siteSlots c.store s.store.directory).bind fun x => x.get i) = none →
        ((s.policies.get type).policy = none →
          exec (.createLane c) s = .next (s.hold .supervision (.bare .noPolicy))) ∧
        ((s.policies.get type).policy ≠ none →
          (lotInState type .current s.lots.entries = none →
            exec (.createLane c) s = .next (s.hold .supervision (.bare .noCurrentLot))) ∧
          (lotInState type .current s.lots.entries ≠ none → PoolSound s →
            ((∀ m, m < 1536 → s.lane m ≠ none) →
              exec (.createLane c) s = .next (s.hold .supervision (.bare .poolFull))) ∧
            (∀ m, m < 1536 → s.lane m = none → siteSlots c.store s.store.directory = none →
              512 ≤ s.store.directory.length →
              exec (.createLane c) s = .next (s.hold .supervision (.bare .directoryFull)))))))

/-- Where the lane of a CREATE LANE that is not refused goes in the directory (R9). -/
def Obligations.NewStoresTakeTheirPosition : Prop :=
  ∀ (s t : State) (c : LaneCreation) (i : SlotNumber) (n : Nat) (l : Lane),
    Takes .supervision (.createLane c) s → c.slot = i → exec (.createLane c) s = .next t →
    t.framer .supervision = .replyHeld (.done (.laneRecord n l)) →
    (∀ k, searchSites c.store s.store.directory = .notFound k →
      t.store.directory = s.store.directory.take k ++ ⟨c.store, Slots.vacant.put i (some n)⟩ ::
        s.store.directory.drop k ∧ t.store.siteCount = s.store.siteCount + 1) ∧
    (∀ k, searchSites c.store s.store.directory = .found k →
      ∃ e, s.store.directory[k]? = some e ∧ e.store = c.store ∧
        t.store.directory = s.store.directory.set k { e with slots := e.slots.put i (some n) } ∧
        t.store.siteCount = s.store.siteCount)

/-- EDIT LANE on a lane (R15, R16). -/
def Obligations.EditLaneWritesItsParts : Prop :=
  ∀ (s : State) (name : LaneName) (e : LaneEdit) (line : Level) (n : Nat) (l : Lane),
    Takes .supervision (.editLane name e) s → s.named name = .lane n l →
    (l.locked = true ∧ line = .inactive →
      exec (.editLane name e line) s = .next ((s.drive line).hold .supervision (.bare .locked))) ∧
    (¬(l.locked = true ∧ line = .inactive) → ∃ l' : Lane,
      exec (.editLane name e line) s =
        .next (((s.drive line).putLane n l').hold .supervision (.done (.laneRecord n l'))) ∧
      (∀ p, l'.offsets.pick p = match e.offsets with
        | none => l.offsets.pick p
        | some o => max (-500) (min 500 (o.pick p))) ∧
      (l'.offsets = l.offsets ∨ l.state = .held → l' = { l with
        offsets := l'.offsets, restMask := e.restMask.getD l.restMask, autoCross := e.autoCross.getD l.autoCross,
        autoClear := e.autoClear.getD l.autoClear }) ∧
      (l'.offsets ≠ l.offsets → l.state ≠ .held → l' = { l with
        offsets := l'.offsets, restMask := e.restMask.getD l.restMask, autoCross := e.autoCross.getD l.autoCross,
        autoClear := e.autoClear.getD l.autoClear, state := .settling, settleProgress := 0, cleanProgress := 0,
        trend := Points.all ⟨0, false⟩, runCount := Points.all 0 }))

/-- LOCK LANE and UNLOCK LANE on a lane (R17, R18). -/
def Obligations.LockAndUnlockNeedTheSupervisor : Prop :=
  ∀ (s : State) (name : LaneName) (n : Nat) (l : Lane), s.named name = .lane n l →
    (Takes .supervision (.lockLane name) s →
      exec (.lockLane name .inactive) s =
        .next ((s.drive .inactive).hold .supervision (.bare .supervisorRequired)) ∧
      exec (.lockLane name .active) s = .next (((s.drive .active).putLane n { l with locked := true }).hold
        .supervision (.done (.laneMarks n { l with locked := true })))) ∧
    (Takes .supervision (.unlockLane name) s →
      exec (.unlockLane name .inactive) s =
        .next ((s.drive .inactive).hold .supervision (.bare .supervisorRequired)) ∧
      exec (.unlockLane name .active) s = .next (((s.drive .active).putLane n { l with locked := false }).hold
        .supervision (.done (.laneMarks n { l with locked := false }))))

/-- RETIRE LANE on a lane (R10, R19, R27, R43, R165). -/
def Obligations.RetireLaneRemovesTheLane : Prop :=
  ∀ (s : State) (name : LaneName) (line : Level) (n : Nat) (l : Lane),
    Takes .supervision (.retireLane name) s → PoolSound s → DirectorySound s → s.named name = .lane n l →
    (l.locked = true ∧ line = .inactive →
      exec (.retireLane name line) s = .next ((s.drive line).hold .supervision (.bare .locked))) ∧
    (¬(l.locked = true ∧ line = .inactive) → ∃ (t : State) (x : Slots (Option Nat)),
      siteSlots l.store s.store.directory = some x ∧
      exec (.retireLane name line) s = .next (t.hold .supervision
        (.done (.laneRetired n l.store l.slot (decide (x.put l.slot none = Slots.vacant))))) ∧
      t.lane n = none ∧ (∀ m, m ≠ n → t.lane m = s.lane m) ∧
      t.store.occupiedLanes = s.store.occupiedLanes - 1 ∧
      t.store.siteCount = s.store.siteCount - (if x.put l.slot none = Slots.vacant then 1 else 0) ∧
      siteSlots l.store t.store.directory =
        (if x.put l.slot none = Slots.vacant then none else some (x.put l.slot none)) ∧
      (∀ b, b ≠ l.store → siteSlots b t.store.directory = siteSlots b s.store.directory) ∧
      (∀ u, t.policies.get u = { s.policies.get u with
        laneCount := (s.policies.get u).laneCount - if u = l.type then 1 else 0 }) ∧
      (∀ m, Table.find m t.lots.entries = (Table.find m s.lots.entries).map fun e => { e with
        users := e.users - (if m = l.activeLot then 1 else 0) - (if l.pendingLot = some m then 1 else 0) }) ∧
      t.lots.count = s.lots.count ∧
      t.attention = { s.attention with
        order := s.attention.order.erase n
        length := s.attention.length - if n ∈ s.attention.order then 1 else 0 } ∧
      t.pending = s.pending ∧ t.lines = { s.lines with supervisorEnable := line } ∧ t.ports = s.ports ∧
      t.queues = s.queues ∧ t.clock = s.clock ∧ t.sweeps = s.sweeps ∧ t.status = s.status)

/-- RETIRE SITE: what becomes of each slot of the store, of its site entry, of the counts, the lots' users and the
Attention List, and of every other lane (R10, R19, R21, R27, R165). That the command carries the level of SUPERVISOR
ENABLE and drives the line to it is the model's choice (log entry 6). -/
def Obligations.RetireSiteTreatsEverySlot : Prop :=
  ∀ (s : State) (store : Nat) (line : Level), Takes .supervision (.retireSite store) s →
    (store = 0 → exec (.retireSite store line) s =
      .next ((s.drive line).hold .supervision (.bare .malformed))) ∧
    (store ≠ 0 → siteSlots store s.store.directory = none → exec (.retireSite store line) s =
      .next ((s.drive line).hold .supervision (.bare .noLane))) ∧
    (∀ x, store ≠ 0 → siteSlots store s.store.directory = some x → PoolSound s → DirectorySound s →
      ∃ (t : State) (o : Slots SlotOutcome) (left : Slots (Option Nat)),
        let slots : List SlotNumber := [0, 1, 2, 3]
        let retired := fun (i : SlotNumber) (which : Lane → Bool) =>
          decide (o.get i = .retired) && ((x.get i).bind s.lane).any which
        exec (.retireSite store line) s = .next (t.hold .supervision (.done (.siteRetired store o))) ∧
        (∀ i, match x.get i with
          | none => o.get i = .empty
          | some n => ∃ l, s.lane n = some l ∧
            if l.locked = true ∧ line = .inactive then o.get i = .skippedLocked ∧ t.lane n = some l
            else o.get i = .retired ∧ t.lane n = none) ∧
        (∀ n l, s.lane n = some l → l.store ≠ store → t.lane n = some l) ∧
        (∀ n, s.lane n = none → t.lane n = none) ∧
        (∀ i, left.get i = if o.get i = .retired then none else x.get i) ∧
        siteSlots store t.store.directory = (if left = Slots.vacant then none else some left) ∧
        (∀ b, b ≠ store → siteSlots b t.store.directory = siteSlots b s.store.directory) ∧
        t.store.siteCount = s.store.siteCount - (if left = Slots.vacant then 1 else 0) ∧
        t.store.occupiedLanes = s.store.occupiedLanes - slots.countP (fun i => retired i fun _ => true) ∧
        (∀ u, t.policies.get u = { s.policies.get u with
          laneCount := (s.policies.get u).laneCount - slots.countP fun i => retired i fun l => l.type = u }) ∧
        (∀ m, Table.find m t.lots.entries = (Table.find m s.lots.entries).map fun e => { e with
          users := e.users - slots.countP (fun i => retired i fun l => l.activeLot = m) -
            slots.countP (fun i => retired i fun l => l.pendingLot = some m) }) ∧
        t.lots.count = s.lots.count ∧
        (ListSound s →
          t.attention.order = s.attention.order.filter (fun n => (t.lane n).isSome) ∧
          t.attention.length = (s.attention.order.filter fun n => (t.lane n).isSome).length ∧
          t.attention = { s.attention with order := t.attention.order, length := t.attention.length }) ∧
        t.pending = s.pending ∧ t.lines = { s.lines with supervisorEnable := line } ∧ t.ports = s.ports ∧
        t.queues = s.queues ∧ t.clock = s.clock ∧ t.sweeps = s.sweeps ∧ t.status = s.status)

/-- LOOKUP LANE on a lane, and NEXT LANE (R22, R23). -/
def Obligations.LookupAndNextFindLanes : Prop :=
  (∀ (s : State) (name : LaneName) (n : Nat) (l : Lane), Takes .supervision (.lookupLane name) s →
    s.named name = .lane n l →
    exec (.lookupLane name) s = .next (s.hold .supervision (.done (.laneRecord n l)))) ∧
  (∀ (s : State) (start : Option Nat), Takes .supervision (.nextLane start) s → PoolSound s →
    ((∃ k, start = some k ∧ 1536 ≤ k) →
      exec (.nextLane start) s = .next (s.hold .supervision (.bare .malformed))) ∧
    ((∀ k, start = some k → k < 1536) →
      ((∀ m, (∀ k, start = some k → k < m) → s.lane m = none) →
        exec (.nextLane start) s = .next (s.hold .supervision (.bare .none))) ∧
      (∀ n l, (∀ k, start = some k → k < n) → s.lane n = some l →
        (∀ m, (∀ k, start = some k → k < m) → m < n → s.lane m = none) →
        exec (.nextLane start) s = .next (s.hold .supervision (.done (.laneRecord n l))))))

/-- HOLD, RELEASE and REQUALIFY LANE on a lane (R121, R123 to R125). -/
def Obligations.HoldReleaseAndRequalify : Prop :=
  ∀ (s : State) (name : LaneName) (n : Nat) (l : Lane), s.named name = .lane n l →
    let held : Lane := { l with state := .held, overdue := false }
    let reset : Lane := { l with
      state := .settling, settleProgress := 0, cleanProgress := 0, trend := Points.all ⟨0, false⟩,
      runCount := Points.all 0 }
    (Takes .supervision (.holdLane name) s → exec (.holdLane name) s =
      .next ((s.putLane n held).hold .supervision (.done (.laneMoved n held l.state)))) ∧
    (Takes .supervision (.releaseLane name) s →
      (l.state ≠ .held → exec (.releaseLane name) s = .next (s.hold .supervision (.bare .wrongState))) ∧
      (l.state = .held → exec (.releaseLane name) s =
        .next ((s.putLane n reset).hold .supervision (.done (.laneMoved n reset .held))))) ∧
    (Takes .supervision (.requalifyLane name) s →
      (l.state = .held → exec (.requalifyLane name) s = .next (s.hold .supervision (.bare .wrongState))) ∧
      (l.state ≠ .held → exec (.requalifyLane name) s =
        .next ((s.putLane n reset).hold .supervision (.done (.laneMoved n reset l.state)))))

/-- The eight requests that name a lane, on a bad name and on a name that holds no lane (R8, R11). -/
def Obligations.UnnamedLanesAreRefused : Prop :=
  ∀ (c : Instr) (name : LaneName) (r : Request) (s : State), laneNameOf c = some name →
    c.request = some (.supervision, r) → Takes .supervision r s →
    (∀ store slot, name = .bySlot store slot →
      (store = 0 ∨ 3 < slot → exec c s = .next ((s.driven c).hold .supervision (.bare .malformed))) ∧
      (store ≠ 0 → slot ≤ 3 → s.laneAt store slot = none →
        exec c s = .next ((s.driven c).hold .supervision (.bare .noLane)))) ∧
    (∀ n, name = .byNumber n →
      (1536 ≤ n → exec c s = .next ((s.driven c).hold .supervision (.bare .malformed))) ∧
      (n < 1536 → s.lane n = none → exec c s = .next ((s.driven c).hold .supervision (.bare .noLane))))

/-! ### Policies and lots (chapters 2 and 3) -/

/-- SET POLICY in both forms, and READ POLICY (R36 to R38). -/
def Obligations.PolicyRequestsReadAndWrite : Prop :=
  ∀ (s : State) (n : Nat) (b : Policy) (line : Level),
    (Takes .supervision (.setPolicy n b) s →
      (7 < n → exec (.setPolicy n b line) s = .next ((s.drive line).hold .supervision (.bare .malformed))) ∧
      (∀ t : ProcessType, n = t →
        (line = .inactive → exec (.setPolicy n b line) s =
          .next ((s.drive line).hold .supervision (.bare .supervisorRequired))) ∧
        (line = .active → exec (.setPolicy n b line) s = .next
          ((((s.drive line).withPolicy t ⟨some (storedPolicy b), (s.policies.get t).laneCount⟩)).hold .supervision
            (.done (.policyStored t (storedPolicy b) (s.policies.get t).laneCount
              (adjusted b (storedPolicy b)))))))) ∧
    (Takes .supervision (.setPolicyUndefine n) s →
      (7 < n → exec (.setPolicyUndefine n line) s = .next ((s.drive line).hold .supervision (.bare .malformed))) ∧
      (∀ t : ProcessType, n = t →
        (line = .inactive → exec (.setPolicyUndefine n line) s =
          .next ((s.drive line).hold .supervision (.bare .supervisorRequired))) ∧
        (line = .active → (s.policies.get t).laneCount ≠ 0 → exec (.setPolicyUndefine n line) s =
          .next ((s.drive line).hold .supervision (.bare .inUse))) ∧
        (line = .active → (s.policies.get t).laneCount = 0 → exec (.setPolicyUndefine n line) s =
          .next (((s.drive line).withPolicy t ⟨none, 0⟩).hold .supervision (.done (.policyUndefined t)))))) ∧
    (Takes .supervision (.readPolicy n) s →
      (7 < n → exec (.readPolicy n) s = .next (s.hold .supervision (.bare .malformed))) ∧
      (∀ t : ProcessType, n = t →
        ((s.policies.get t).policy = none →
          exec (.readPolicy n) s = .next (s.hold .supervision (.bare .noPolicy))) ∧
        (∀ p, (s.policies.get t).policy = some p → exec (.readPolicy n) s =
          .next (s.hold .supervision (.done (.policyRead t p (s.policies.get t).laneCount))))))

/-- ANNOUNCE LOT, DELETE LOT and READ LOT in both forms, their checks in order (R50 to R52). -/
def Obligations.LotsAreAnnouncedReadAndDeleted : Prop :=
  (∀ (s : State) (lot n : Nat) (refs : Patches Nat), Takes .supervision (.announceLot lot n refs) s →
    (lot = 0 ∨ 7 < n → exec (.announceLot lot n refs) s = .next (s.hold .supervision (.bare .malformed))) ∧
    (∀ t : ProcessType, n = t → lot ≠ 0 →
      (Table.find lot s.lots.entries ≠ none →
        exec (.announceLot lot n refs) s = .next (s.hold .supervision (.bare .lotExists))) ∧
      (Table.find lot s.lots.entries = none → (s.policies.get t).policy = none →
        exec (.announceLot lot n refs) s = .next (s.hold .supervision (.bare .noPolicy))) ∧
      (Table.find lot s.lots.entries = none → (s.policies.get t).policy ≠ none → 32 ≤ s.lots.entries.length →
        exec (.announceLot lot n refs) s = .next (s.hold .supervision (.bare .lotTableFull))) ∧
      (Table.find lot s.lots.entries = none → (s.policies.get t).policy ≠ none → s.lots.entries.length < 32 →
        let e : Lot := ⟨t, .announced, Patches.map (fun v => min v 4000) refs, 0, s.clock.day⟩
        exec (.announceLot lot n refs) s =
          .next ({ s with lots := ⟨Table.put lot e s.lots.entries, s.lots.count + 1⟩ }.hold .supervision
            (.done (.lotAnnounced lot e (refs.toList.any fun v => 4000 < v))))))) ∧
  (∀ (s : State) (lot : Nat), Takes .supervision (.deleteLot lot) s →
    (lot = 0 → exec (.deleteLot lot) s = .next (s.hold .supervision (.bare .malformed))) ∧
    (lot ≠ 0 → Table.find lot s.lots.entries = none →
      exec (.deleteLot lot) s = .next (s.hold .supervision (.bare .noLot))) ∧
    (∀ e, lot ≠ 0 → Table.find lot s.lots.entries = some e →
      (e.state = .rolling ∨ e.state = .current →
        exec (.deleteLot lot) s = .next (s.hold .supervision (.bare .wrongState))) ∧
      (e.state = .announced ∨ e.state = .superseded → e.users ≠ 0 →
        exec (.deleteLot lot) s = .next (s.hold .supervision (.bare .lotInUse))) ∧
      (e.state = .announced ∨ e.state = .superseded → e.users = 0 → exec (.deleteLot lot) s =
        .next ({ s with lots := ⟨Table.drop lot s.lots.entries, s.lots.count - 1⟩ }.hold .supervision
          (.done (.lotDeleted lot e.type)))))) ∧
  (∀ (s : State) (lot : Nat), Takes .supervision (.readLot lot) s →
    (lot = 0 → exec (.readLot lot) s = .next (s.hold .supervision (.bare .malformed))) ∧
    (lot ≠ 0 → Table.find lot s.lots.entries = none →
      exec (.readLot lot) s = .next (s.hold .supervision (.bare .noLot))) ∧
    (∀ e, lot ≠ 0 → Table.find lot s.lots.entries = some e →
      exec (.readLot lot) s = .next (s.hold .supervision (.done (.lotRead lot e))))) ∧
  (∀ (s : State) (start : Nat), Takes .supervision (.readLotFollowing start) s → Table.wf s.lots.entries →
    ((∀ m, start < m → Table.find m s.lots.entries = none) →
      exec (.readLotFollowing start) s = .next (s.hold .supervision (.bare .none))) ∧
    (∀ n e, start < n → Table.find n s.lots.entries = some e →
      (∀ m, start < m → m < n → Table.find m s.lots.entries = none) →
      exec (.readLotFollowing start) s = .next (s.hold .supervision (.done (.lotRead n e)))))

/-! ### The clock (chapter 7) -/

/-- One event on the MINUTE TICK line (R130 to R133). That the four tick rows are that one event is the model's
choice (log entry 4). -/
def Obligations.MinuteTicksMoveTheClock : Prop :=
  ∀ (c : Instr) (s : State), c ∈ [.minuteTick, .dayRollover, .clockLastMomentStop, .deadlineTick] →
    (¬Awake s ∨ s.clock.running = false → exec c s = .next s) ∧
    (Awake s → s.clock.running = true →
      (s.clock.day = 65535 ∧ s.clock.minute = 1439 →
        exec c s = .next (s.withClock { s.clock with running := false })) ∧
      (¬(s.clock.day = 65535 ∧ s.clock.minute = 1439) →
        let k : DayClock := if s.clock.minute < 1439 then { s.clock with minute := s.clock.minute + 1 }
          else { s.clock with minute := 0, day := s.clock.day + 1 }
        (k.minute ≠ k.deadline → exec c s = .next (s.withClock k)) ∧
        (k.minute = k.deadline →
          (s.sweeps.engine = .idle → exec c s = .next ((s.withClock k).withSweeps
            { s.sweeps with engine := .running ⟨.overdue, .deadline, 0, 0⟩ })) ∧
          (∀ w, s.sweeps.engine = .running w → exec c s = .next ((s.withClock k).withSweeps
            { s.sweeps with pendingOverdue := true })))))

/-- SET CLOCK, START CLOCK, STOP CLOCK and SET DEADLINE (R134 to R136). That the replies of the last three carry the
clock in READ CLOCK's form is the model's reading (DEDUCED, log entry 22). -/
def Obligations.ClockRequestsWriteTheClock : Prop :=
  (∀ (s : State) (day minute base : Nat), Takes .supervision (.setClock day minute base) s →
    (s.clock.running = true →
      exec (.setClock day minute base) s = .next (s.hold .supervision (.bare .clockRunning))) ∧
    (s.clock.running = false →
      let k : DayClock := { s.clock with day := day, minute := min minute 1439, weekdayBase := min base 6 }
      exec (.setClock day minute base) s = .next ((s.withClock k).hold .supervision (.done (.clock k))))) ∧
  (∀ s : State, Takes .supervision .startClock s → exec .startClock s =
    .next ((s.withClock { s.clock with running := true }).hold .supervision
      (.done (.clock { s.clock with running := true })))) ∧
  (∀ s : State, Takes .supervision .stopClock s → exec .stopClock s =
    .next ((s.withClock { s.clock with running := false }).hold .supervision
      (.done (.clock { s.clock with running := false })))) ∧
  (∀ (s : State) (minute : Nat), Takes .supervision (.setDeadline minute) s → exec (.setDeadline minute) s =
    .next ((s.withClock { s.clock with deadline := min minute 1439 }).hold .supervision
      (.done (.clock { s.clock with deadline := min minute 1439 }))))

/-- READ CLOCK, the values it carries, and the clock requests while READY is low (R137). -/
def Obligations.ReadClockReportsTheClock : Prop :=
  (∀ s : State, Takes .supervision .readClock s →
    exec .readClock s = .next (s.hold .supervision (.done (.clock s.clock)))) ∧
  (∀ k : DayClock, doneBytes (.clock k) = byte2 k.day ++ byte2 k.minute ++ byte1 k.weekdayBase ++
    byte1 ((k.day + k.weekdayBase) % 7) ++ flag k.running ++ byte2 k.deadline) ∧
  (∀ (s : State) (a b d m : Nat) (c : Instr),
    c ∈ [.setClock a b d, .startClock, .stopClock, .readClock, .setDeadline m] →
    s.lines.ready = false → s.lines.resetAsserted = false → (∀ r, s.framer .supervision ≠ .answering r) →
    exec c s = .next (s.hold .supervision (.bare .notReady)))

/-! ### Sweeps (chapters 7 and 8) -/

/-- The three START requests, CANCEL SWEEP and SWEEP STATUS (R147, R148, R151, R154 to R156). -/
def Obligations.SweepRequestsStartCancelAndReport : Prop :=
  ∀ (s : State),
    (Takes .supervision .startPeriodClose s →
      (s.sweeps.engine ≠ .idle → exec .startPeriodClose s = .next (s.hold .supervision (.bare .sweepBusy))) ∧
      (s.sweeps.engine = .idle → exec .startPeriodClose s = .next ((s.withSweeps { s.sweeps with
          engine := .running ⟨.periodClose, .request, 0, 0⟩
          periodNumber := (s.sweeps.periodNumber + 1) % 65536 }).hold .supervision
        (.done (.periodStarted ((s.sweeps.periodNumber + 1) % 65536)))))) ∧
    (∀ lot, Takes .supervision (.startRollout lot) s →
      (lot = 0 → exec (.startRollout lot) s = .next (s.hold .supervision (.bare .malformed))) ∧
      (lot ≠ 0 → s.sweeps.engine ≠ .idle →
        exec (.startRollout lot) s = .next (s.hold .supervision (.bare .sweepBusy))) ∧
      (lot ≠ 0 → s.sweeps.engine = .idle →
        (Table.find lot s.lots.entries = none →
          exec (.startRollout lot) s = .next (s.hold .supervision (.bare .noLot))) ∧
        (∀ e, Table.find lot s.lots.entries = some e →
          (e.state ≠ .announced → exec (.startRollout lot) s = .next (s.hold .supervision (.bare .wrongState))) ∧
          (e.state = .announced → exec (.startRollout lot) s =
            .next (((s.withLots (setLotState lot .rolling s.lots.entries)).withSweeps
              { s.sweeps with engine := .running ⟨.rollout lot, .request, 0, 0⟩ }).hold .supervision
              (.done (.rolloutStarted lot e.type (lotInState e.type .current s.lots.entries)))))))) ∧
    (Takes .supervision .startOverdue s →
      (s.sweeps.engine ≠ .idle → exec .startOverdue s = .next (s.hold .supervision (.bare .sweepBusy))) ∧
      (s.sweeps.engine = .idle → exec .startOverdue s =
        .next ((s.withSweeps { s.sweeps with engine := .running ⟨.overdue, .request, 0, 0⟩ }).hold .supervision
          (.done (.overdueStarted s.clock.day s.clock.minute))))) ∧
    (Takes .supervision .cancelSweep s →
      (s.sweeps.engine = .idle → exec .cancelSweep s = .next (s.hold .supervision (.bare .wrongState))) ∧
      (∀ w, s.sweeps.engine = .running w →
        (w.kind = .periodClose ∨ w.kind = .overdue →
          exec .cancelSweep s = .next (s.hold .supervision (.bare .wrongState))) ∧
        (∀ lot, w.kind = .rollout lot → exec .cancelSweep s = .next ({ s with
            lots := { s.lots with entries := setLotState lot .announced s.lots.entries }
            sweeps := {
              engine := if s.sweeps.pendingOverdue then .running ⟨.overdue, .deadline, 0, 0⟩ else .idle
              pendingOverdue := false
              periodNumber := s.sweeps.periodNumber
              sweepDone := s.sweeps.sweepDone || decide (w.origin = Origin.request)
              lastSweep := some ⟨.rollout lot, w.origin, .cancelled, w.cursor, w.steps⟩ }
            attention := if w.origin = Origin.request then s.attention.owe else s.attention }.hold .supervision
          (.done (.rolloutCancelled lot w.cursor w.steps)))))) ∧
    (Takes .supervision .sweepStatus s → exec .sweepStatus s =
      .next ((s.withSweeps { s.sweeps with sweepDone := false }).hold .supervision
        (.done (.sweepStatus s.sweeps))))

/-- The end of every step, and of the sweep at place 1535: the last-sweep record, the flags, the lots of a completed
rollout and the overdue sweep that was pending (R46, R145, R146, R153). -/
def Obligations.SweepsAdvanceAndComplete : Prop :=
  ∀ (s : State) (w : Sweep) (worked : Bool),
    let steps := w.steps + if worked then 1 else 0
    (w.cursor < 1535 → s.advance w worked = s.withSweeps { s.sweeps with
      engine := .running ⟨w.kind, w.origin, w.cursor + 1, steps⟩ }) ∧
    (w.cursor = 1535 →
      (s.advance w worked).sweeps = {
        engine := if s.sweeps.pendingOverdue then .running ⟨.overdue, .deadline, 0, 0⟩ else .idle
        pendingOverdue := false
        periodNumber := s.sweeps.periodNumber
        sweepDone := s.sweeps.sweepDone || decide (w.origin = Origin.request)
        lastSweep := some ⟨w.kind, w.origin, .completed, 1536, steps⟩ } ∧
      (s.advance w worked).attention = (if w.origin = Origin.request then s.attention.owe else s.attention) ∧
      (s.advance w worked).lots.count = s.lots.count ∧
      (∀ m, Table.find m (s.advance w worked).lots.entries = (Table.find m s.lots.entries).map fun e =>
        match w.kind with
        | .periodClose | .overdue => e
        | .rollout lot =>
          match Table.find lot s.lots.entries with
          | none => e
          | some rolling =>
            if m = lot then { e with state := .current }
            else if e.type = rolling.type ∧ e.state = .current then { e with state := .superseded }
            else e) ∧
      { s.advance w worked with sweeps := s.sweeps, attention := s.attention, lots := s.lots } = s)

/-- A period close step (R145, R149). -/
def Obligations.PeriodCloseStepsCloseLanes : Prop :=
  ∀ (s : State),
    (¬Awake s ∨ (∀ w, s.sweeps.engine = .running w → w.kind ≠ .periodClose) →
      exec .periodCloseStep s = .next s) ∧
    (∀ w, Awake s → s.sweeps.engine = .running w → w.kind = .periodClose →
      (s.lane w.cursor = none → exec .periodCloseStep s = .next (s.advance w false)) ∧
      (∀ l, s.lane w.cursor = some l →
        (l.periodTag = s.sweeps.periodNumber → exec .periodCloseStep s = .next (s.advance w false)) ∧
        (l.periodTag ≠ s.sweeps.periodNumber → exec .periodCloseStep s = .next ((s.putLane w.cursor { l with
          summary := l.counters, periodTag := s.sweeps.periodNumber,
          counters := ⟨0, 0, 0, 0, 0, 0, 0, 0⟩ }).advance w true))))

/-- A rollout step (R145, R152). -/
def Obligations.RolloutStepsAssignTheLot : Prop :=
  ∀ (s : State),
    (¬Awake s ∨ (∀ w lot, s.sweeps.engine = .running w → w.kind ≠ .rollout lot) →
      exec .rolloutStep s = .next s) ∧
    (∀ w lot e, Awake s → s.sweeps.engine = .running w → w.kind = .rollout lot →
      Table.find lot s.lots.entries = some e →
      (s.lane w.cursor = none → exec .rolloutStep s = .next (s.advance w false)) ∧
      (∀ l, s.lane w.cursor = some l →
        (l.type ≠ e.type ∨ l.activeLot = lot ∨ l.pendingLot = some lot →
          exec .rolloutStep s = .next (s.advance w false)) ∧
        (l.type = e.type → l.activeLot ≠ lot → l.pendingLot ≠ some lot →
          ∃ t : State, exec .rolloutStep s = .next (t.advance w true) ∧ OnlyLane w.cursor s t ∧
            t.lane w.cursor = some { l with pendingLot := some lot } ∧
            t.queues = s.queues ∧ t.attention = s.attention ∧ t.lots.count = s.lots.count ∧
            ∀ m, Table.find m t.lots.entries = (Table.find m s.lots.entries).map fun x => { x with
              users := x.users - (if l.pendingLot = some m then 1 else 0) + (if m = lot then 1 else 0) })))

/-- An overdue step (R140, R145). -/
def Obligations.OverdueStepsMarkLanes : Prop :=
  ∀ (s : State),
    (¬Awake s ∨ (∀ w, s.sweeps.engine = .running w → w.kind ≠ .overdue) → exec .overdueStep s = .next s) ∧
    (∀ w, Awake s → s.sweeps.engine = .running w → w.kind = .overdue →
      (s.lane w.cursor = none → exec .overdueStep s = .next (s.advance w false)) ∧
      (∀ l, s.lane w.cursor = some l →
        (l.state = .held → exec .overdueStep s = .next (s.advance w false)) ∧
        (∀ pol, l.state ≠ .held → (s.policies.get l.type).policy = some pol →
          (missedStrips s.clock l < pol.overdueLimit ∨ l.overdue = true →
            exec .overdueStep s = .next (s.advance w false)) ∧
          (pol.overdueLimit ≤ missedStrips s.clock l → l.overdue = false → exec .overdueStep s =
            .next (((s.putLane w.cursor { l with
              overdue := true
              counters := { l.counters with overdueRaises := min (l.counters.overdueRaises + 1) 255 } }).raise
                pol.noticeMask w.cursor .overdue).advance w true)))))

/-! ### The Attention List (chapter 9) -/

/-- TAKE NOTICE (R163, R164). -/
def Obligations.TakeNoticeTakesTheHead : Prop :=
  ∀ (s : State), Takes .supervision .takeNotice s →
    (s.attention.order = [] → exec .takeNotice s = .next (s.hold .supervision (.bare .listEmpty))) ∧
    (∀ n rest l stamp, s.attention.order = n :: rest → s.lane n = some l → l.joined = some stamp →
      exec .takeNotice s =
        .next (((s.putLane n { l with causes := .empty, joined := none }).withAttention
          { s.attention with order := rest, length := s.attention.length - 1 }).hold .supervision
          (.done (.notice ⟨n, l.store, l.slot, l.causes, l.state, l.locked, l.autoCross, l.autoClear, l.overdue,
            stamp⟩ (s.attention.length - 1)))))

/-- A cause raised on a lane is dropped, joins or merges (R161). -/
def Obligations.RaisedCausesJoinOrMerge : Prop :=
  ∀ (s : State) (mask : Causes) (n : Nat) (c : Cause) (l : Lane), PoolSound s → s.lane n = some l →
    (passes mask c = false → s.raise mask n c = s) ∧
    (passes mask c = true → l.causes = .empty → ∃ (m : Causes) (a : AttentionList),
      s.raise mask n c = (s.putLane n { l with
        causes := m, joined := some ⟨s.clock.day, s.clock.minute⟩ }).withAttention a ∧
      (∀ x, m.has x = true ↔ x = c) ∧
      a.order = s.attention.order ++ [n] ∧ a.length = s.attention.length + 1 ∧ a.mode = s.attention.mode ∧
      a.pulseInProgress = s.attention.pulseInProgress ∧
      a.pulsesOwed = match s.attention.mode with
        | .level => s.attention.pulsesOwed
        | .pulse => min (s.attention.pulsesOwed + 1) 255) ∧
    (passes mask c = true → l.causes ≠ .empty → l.causes.has c = false →
      ∃ m : Causes, s.raise mask n c = s.putLane n { l with causes := m } ∧
        ∀ x, m.has x = true ↔ l.causes.has x = true ∨ x = c) ∧
    (passes mask c = true → l.causes.has c = true → s.raise mask n c = s)

/-- SET ATTENTION MODE, the pulses, and the level of ATTN (R167 to R170). -/
def Obligations.AttentionLineFollowsItsMode : Prop :=
  (∀ (s : State) (mode : Nat), Takes .supervision (.setAttentionMode mode) s →
    (mode = 0 → exec (.setAttentionMode mode) s = .next ((s.withAttention
      { s.attention with mode := .level, pulsesOwed := 0, pulseInProgress := false }).hold .supervision
        (.done (.attentionMode .level)))) ∧
    (mode = 1 → exec (.setAttentionMode mode) s = .next ((s.withAttention
      { s.attention with mode := .pulse, pulsesOwed := 0, pulseInProgress := false }).hold .supervision
        (.done (.attentionMode .pulse))))) ∧
  (∀ s : State,
    (Awake s ∧ s.attention.mode = .pulse ∧ 0 < s.attention.pulsesOwed ∧ s.attention.pulseInProgress = false →
      exec .attnPulseStart s = .next (s.withAttention { s.attention with pulseInProgress := true })) ∧
    (¬(Awake s ∧ s.attention.mode = .pulse ∧ 0 < s.attention.pulsesOwed ∧ s.attention.pulseInProgress = false) →
      exec .attnPulseStart s = .next s) ∧
    (s.attention.pulseInProgress = true → exec .attnPulseEnd s = .next (s.withAttention
      { s.attention with pulseInProgress := false, pulsesOwed := s.attention.pulsesOwed - 1 })) ∧
    (s.attention.pulseInProgress = false → exec .attnPulseEnd s = .next s) ∧
    (s.lines.ready = false → attnLine s = false) ∧
    (s.lines.ready = true → s.attention.mode = .level →
      (attnLine s = true ↔ 0 < s.attention.length ∨ s.sweeps.sweepDone = true)) ∧
    (s.lines.ready = true → s.attention.mode = .pulse → attnLine s = s.attention.pulseInProgress))

/-! ### Status, identity, bring-up (chapter 10) -/

/-- STATUS (R180). -/
def Obligations.StatusReportsTheState : Prop :=
  ∀ (s : State) (line : Level), Takes .supervision .status s → exec (.status line) s =
    .next ((s.drive line).hold .supervision (.done (.status
      { line := line, clock := s.clock, engine := s.sweeps.engine, sweepDone := s.sweeps.sweepDone,
        pendingOverdue := s.sweeps.pendingOverdue, intakeDepth := s.queues.intake.length,
        verdictDepth := s.queues.verdicts.length, listLength := s.attention.length,
        occupiedLanes := s.store.occupiedLanes, sites := s.store.siteCount, lots := s.lots.count,
        resetCause := s.status.resetCause, brokeIntoSweep := s.status.brokeIntoSweep })))

/-- IDENTIFY, with its values as they cross the port (R181). -/
def Obligations.IdentifyNeverChanges : Prop :=
  (∀ s : State, Takes .supervision .identify s →
    exec .identify s = .next (s.hold .supervision (.done .identity))) ∧
  doneBytes .identity = byte2 3902 ++ byte2 412 ++ byte1 2 ++ byte2 1536 ++ byte2 512 ++ byte2 32 ++ byte2 8 ++
    byte2 24 ++ byte2 24

/-- POWER ON and the end of clearing (R182, R183; log entries 5 and 9). -/
def Obligations.ClearingLeavesThePartEmpty : Prop :=
  (∀ s : State, ∃ t : State, exec .powerOn s = .next t ∧ t.pending = s.pending ∧
    t.lines = { s.lines with ready := false } ∧ (∀ p, t.framer p = .idle) ∧ t.queues = ⟨[], [], 0⟩ ∧
    t.store = ⟨[], 0, [], 0⟩ ∧ (∀ u, t.policies.get u = ⟨none, 0⟩) ∧ t.lots = ⟨[], 0⟩ ∧
    t.clock = ⟨0, 0, 0, false, 720⟩ ∧ t.sweeps = ⟨.idle, false, 0, false, none⟩ ∧
    t.attention = ⟨[], 0, .level, 0, false⟩ ∧ t.status = ⟨.powerOn, false⟩) ∧
  (∀ s : State, s.lines.ready = true → exec .clearingEnd s = .next s) ∧
  (∀ s : State, s.lines.ready = false → ∃ t : State, exec .clearingEnd s = .next t ∧ t.pending = s.pending ∧
    t.lines = { s.lines with ready := true } ∧ (∀ p, t.framer p = .idle) ∧ t.queues = ⟨[], [], 0⟩ ∧
    t.store = ⟨[], 0, [], 0⟩ ∧ (∀ u, t.policies.get u = ⟨none, 0⟩) ∧ t.lots = ⟨[], 0⟩ ∧
    t.clock = ⟨0, 0, 0, false, 720⟩ ∧ t.sweeps = ⟨.idle, false, 0, false, none⟩ ∧
    t.attention = ⟨[], 0, .level, 0, false⟩ ∧ t.status = ⟨.powerOn, false⟩)

/-- The warm reset and its release (R25, R40, R63, R143, R159, R170, R184, R185). -/
def Obligations.WarmResetDropsAndKeeps : Prop :=
  (∀ s : State, s.lines.resetAsserted = true → exec .warmReset s = .next s) ∧
  (∀ s : State, s.lines.resetAsserted = false → ∃ t : State, exec .warmReset s = .next t ∧ t.pending = s.pending ∧
    t.lines = { s.lines with resetAsserted := true } ∧ (∀ p, t.framer p = .idle) ∧ t.queues = ⟨[], [], 0⟩ ∧
    t.store = s.store ∧ t.policies = s.policies ∧ t.clock = s.clock ∧
    t.attention = { s.attention with pulsesOwed := 0, pulseInProgress := false } ∧
    t.status.resetCause = .resetLine ∧
    t.sweeps.pendingOverdue = false ∧ t.sweeps.sweepDone = false ∧ t.sweeps.periodNumber = s.sweeps.periodNumber ∧
    (s.sweeps.engine = .idle → t.status.brokeIntoSweep = false ∧ t.sweeps.engine = .idle ∧
      t.sweeps.lastSweep = s.sweeps.lastSweep ∧ t.lots = s.lots) ∧
    (∀ w, s.sweeps.engine = .running w → t.status.brokeIntoSweep = true ∧
      (w.kind = .periodClose → t.sweeps.engine = .running w ∧ t.sweeps.lastSweep = s.sweeps.lastSweep ∧
        t.lots = s.lots) ∧
      (∀ lot, w.kind = .rollout lot → t.sweeps.engine = .idle ∧
        t.sweeps.lastSweep = some ⟨w.kind, w.origin, .broken, w.cursor, w.steps⟩ ∧
        t.lots = { s.lots with entries := setLotState lot .announced s.lots.entries }) ∧
      (w.kind = .overdue → t.sweeps.engine = .idle ∧
        t.sweeps.lastSweep = some ⟨w.kind, w.origin, .abandoned, w.cursor, w.steps⟩ ∧ t.lots = s.lots))) ∧
  (∀ s : State, exec .resetRelease s = .next { s with lines := { s.lines with resetAsserted := false } })

/-! ### What every step keeps -/

/-- The part after power-on clearing is sound. -/
def Obligations.ResetIsSound : Prop := Sound State.reset

/-- The queues stay within 24, and their tickets stay consecutive up to the counter (R177). -/
def Obligations.QueuesStayConsecutive : Prop :=
  ∀ s t : State, Sound s → step s = .next t → QueuesSound t

/-- The Attention List stays exact: each lane once, listed and stamped exactly while it holds a cause (R160), and the
pulses owed within 255 (R168). That none is owed in LEVEL mode is the model's reading (DEDUCED, log entry 17). -/
def Obligations.AttentionListStaysExact : Prop :=
  ∀ s t : State, Sound s → step s = .next t → ListSound t

/-- The pool and the directory stay exact: every occupied slot names its lane, every lane is named by its slot, and
the counts are right (R6, R7). -/
def Obligations.LaneStoreStaysExact : Prop :=
  ∀ s t : State, Sound s → step s = .next t → PoolSound t ∧ DirectorySound t

/-- The Lot Table stays exact: its user counts, the lots the lanes name, one CURRENT lot of a type, a lot ROLLING
exactly while its rollout runs (R43, R48, R53). -/
def Obligations.LotTableStaysExact : Prop :=
  ∀ s t : State, Sound s → step s = .next t → LotsSound t

/-- Every lane, every policy and the clock stay in range, the lane counts stay right, and every lane's type keeps a
defined policy (R4, R26, R27, R90, R97, R110, R122). -/
def Obligations.LanesPoliciesAndClockStayInRange : Prop :=
  ∀ s t : State, Sound s → step s = .next t → LanesSound t ∧ PoliciesSound t ∧ ClockSound t

/-- The Sweep Engine's values stay in range with the period tags of R150, and the framers stay as R171 and R184 have
them (R144, R145, R150, R171). That the commands which wait stay well formed is about the model's own queue and its
`WellFormed`, the model's choices (log entries 1 and 18). -/
def Obligations.SweepEngineAndPortsStaySound : Prop :=
  ∀ s t : State, Sound s → step s = .next t → SweepsSound t ∧ PortsSound t ∧ PendingSound t

/-- From a sound state no command meets records that contradict each other: the only stop left is a frame that
Table 10-2 says cannot occur. -/
def Obligations.SoundStatesOnlyStopOnImpossibleFrames : Prop :=
  ∀ (s : State) (f : Fault), Sound s → step s = .fault f → f = .frameOnBusyPort
end

