-- ==== Sys2Proof/Laws/State.lean ====
section
/-! SUPPORT. What each named update leaves and writes, field by field, so that no proof unfolds a record
update. -/
namespace Sys2Proof.Machine

variable (s : State)


/-! ### withPort -/

@[simp] theorem State.withPort_pending (p : Port) (x : PortState) : (s.withPort p x).pending = s.pending := by cases p <;> rfl
@[simp] theorem State.withPort_lines (p : Port) (x : PortState) : (s.withPort p x).lines = s.lines := by cases p <;> rfl
@[simp] theorem State.withPort_queues (p : Port) (x : PortState) : (s.withPort p x).queues = s.queues := by cases p <;> rfl
@[simp] theorem State.withPort_store (p : Port) (x : PortState) : (s.withPort p x).store = s.store := by cases p <;> rfl
@[simp] theorem State.withPort_policies (p : Port) (x : PortState) : (s.withPort p x).policies = s.policies := by cases p <;> rfl
@[simp] theorem State.withPort_lots (p : Port) (x : PortState) : (s.withPort p x).lots = s.lots := by cases p <;> rfl
@[simp] theorem State.withPort_clock (p : Port) (x : PortState) : (s.withPort p x).clock = s.clock := by cases p <;> rfl
@[simp] theorem State.withPort_sweeps (p : Port) (x : PortState) : (s.withPort p x).sweeps = s.sweeps := by cases p <;> rfl
@[simp] theorem State.withPort_attention (p : Port) (x : PortState) : (s.withPort p x).attention = s.attention := by cases p <;> rfl
@[simp] theorem State.withPort_status (p : Port) (x : PortState) : (s.withPort p x).status = s.status := by cases p <;> rfl

/-! ### withFramer -/

@[simp] theorem State.withFramer_pending (p : Port) (f : Framer) : (s.withFramer p f).pending = s.pending := by cases p <;> rfl
@[simp] theorem State.withFramer_lines (p : Port) (f : Framer) : (s.withFramer p f).lines = s.lines := by cases p <;> rfl
@[simp] theorem State.withFramer_queues (p : Port) (f : Framer) : (s.withFramer p f).queues = s.queues := by cases p <;> rfl
@[simp] theorem State.withFramer_store (p : Port) (f : Framer) : (s.withFramer p f).store = s.store := by cases p <;> rfl
@[simp] theorem State.withFramer_policies (p : Port) (f : Framer) : (s.withFramer p f).policies = s.policies := by cases p <;> rfl
@[simp] theorem State.withFramer_lots (p : Port) (f : Framer) : (s.withFramer p f).lots = s.lots := by cases p <;> rfl
@[simp] theorem State.withFramer_clock (p : Port) (f : Framer) : (s.withFramer p f).clock = s.clock := by cases p <;> rfl
@[simp] theorem State.withFramer_sweeps (p : Port) (f : Framer) : (s.withFramer p f).sweeps = s.sweeps := by cases p <;> rfl
@[simp] theorem State.withFramer_attention (p : Port) (f : Framer) : (s.withFramer p f).attention = s.attention := by cases p <;> rfl
@[simp] theorem State.withFramer_status (p : Port) (f : Framer) : (s.withFramer p f).status = s.status := by cases p <;> rfl

/-! ### hold -/

@[simp] theorem State.hold_pending (p : Port) (r : Reply) : (s.hold p r).pending = s.pending := by cases p <;> rfl
@[simp] theorem State.hold_lines (p : Port) (r : Reply) : (s.hold p r).lines = s.lines := by cases p <;> rfl
@[simp] theorem State.hold_queues (p : Port) (r : Reply) : (s.hold p r).queues = s.queues := by cases p <;> rfl
@[simp] theorem State.hold_store (p : Port) (r : Reply) : (s.hold p r).store = s.store := by cases p <;> rfl
@[simp] theorem State.hold_policies (p : Port) (r : Reply) : (s.hold p r).policies = s.policies := by cases p <;> rfl
@[simp] theorem State.hold_lots (p : Port) (r : Reply) : (s.hold p r).lots = s.lots := by cases p <;> rfl
@[simp] theorem State.hold_clock (p : Port) (r : Reply) : (s.hold p r).clock = s.clock := by cases p <;> rfl
@[simp] theorem State.hold_sweeps (p : Port) (r : Reply) : (s.hold p r).sweeps = s.sweeps := by cases p <;> rfl
@[simp] theorem State.hold_attention (p : Port) (r : Reply) : (s.hold p r).attention = s.attention := by cases p <;> rfl
@[simp] theorem State.hold_status (p : Port) (r : Reply) : (s.hold p r).status = s.status := by cases p <;> rfl

/-! ### drive -/

@[simp] theorem State.drive_pending (line : Level) : (s.drive line).pending = s.pending := rfl
@[simp] theorem State.drive_ports (line : Level) : (s.drive line).ports = s.ports := rfl
@[simp] theorem State.drive_queues (line : Level) : (s.drive line).queues = s.queues := rfl
@[simp] theorem State.drive_store (line : Level) : (s.drive line).store = s.store := rfl
@[simp] theorem State.drive_policies (line : Level) : (s.drive line).policies = s.policies := rfl
@[simp] theorem State.drive_lots (line : Level) : (s.drive line).lots = s.lots := rfl
@[simp] theorem State.drive_clock (line : Level) : (s.drive line).clock = s.clock := rfl
@[simp] theorem State.drive_sweeps (line : Level) : (s.drive line).sweeps = s.sweeps := rfl
@[simp] theorem State.drive_attention (line : Level) : (s.drive line).attention = s.attention := rfl
@[simp] theorem State.drive_status (line : Level) : (s.drive line).status = s.status := rfl

/-! ### putLane -/

@[simp] theorem State.putLane_pending (n : Nat) (l : Lane) : (s.putLane n l).pending = s.pending := rfl
@[simp] theorem State.putLane_lines (n : Nat) (l : Lane) : (s.putLane n l).lines = s.lines := rfl
@[simp] theorem State.putLane_ports (n : Nat) (l : Lane) : (s.putLane n l).ports = s.ports := rfl
@[simp] theorem State.putLane_queues (n : Nat) (l : Lane) : (s.putLane n l).queues = s.queues := rfl
@[simp] theorem State.putLane_policies (n : Nat) (l : Lane) : (s.putLane n l).policies = s.policies := rfl
@[simp] theorem State.putLane_lots (n : Nat) (l : Lane) : (s.putLane n l).lots = s.lots := rfl
@[simp] theorem State.putLane_clock (n : Nat) (l : Lane) : (s.putLane n l).clock = s.clock := rfl
@[simp] theorem State.putLane_sweeps (n : Nat) (l : Lane) : (s.putLane n l).sweeps = s.sweeps := rfl
@[simp] theorem State.putLane_attention (n : Nat) (l : Lane) : (s.putLane n l).attention = s.attention := rfl
@[simp] theorem State.putLane_status (n : Nat) (l : Lane) : (s.putLane n l).status = s.status := rfl

/-! ### withLots -/

@[simp] theorem State.withLots_pending (t : Table Lot) : (s.withLots t).pending = s.pending := rfl
@[simp] theorem State.withLots_lines (t : Table Lot) : (s.withLots t).lines = s.lines := rfl
@[simp] theorem State.withLots_ports (t : Table Lot) : (s.withLots t).ports = s.ports := rfl
@[simp] theorem State.withLots_queues (t : Table Lot) : (s.withLots t).queues = s.queues := rfl
@[simp] theorem State.withLots_store (t : Table Lot) : (s.withLots t).store = s.store := rfl
@[simp] theorem State.withLots_policies (t : Table Lot) : (s.withLots t).policies = s.policies := rfl
@[simp] theorem State.withLots_clock (t : Table Lot) : (s.withLots t).clock = s.clock := rfl
@[simp] theorem State.withLots_sweeps (t : Table Lot) : (s.withLots t).sweeps = s.sweeps := rfl
@[simp] theorem State.withLots_attention (t : Table Lot) : (s.withLots t).attention = s.attention := rfl
@[simp] theorem State.withLots_status (t : Table Lot) : (s.withLots t).status = s.status := rfl

/-! ### withClock -/

@[simp] theorem State.withClock_pending (c : DayClock) : (s.withClock c).pending = s.pending := rfl
@[simp] theorem State.withClock_lines (c : DayClock) : (s.withClock c).lines = s.lines := rfl
@[simp] theorem State.withClock_ports (c : DayClock) : (s.withClock c).ports = s.ports := rfl
@[simp] theorem State.withClock_queues (c : DayClock) : (s.withClock c).queues = s.queues := rfl
@[simp] theorem State.withClock_store (c : DayClock) : (s.withClock c).store = s.store := rfl
@[simp] theorem State.withClock_policies (c : DayClock) : (s.withClock c).policies = s.policies := rfl
@[simp] theorem State.withClock_lots (c : DayClock) : (s.withClock c).lots = s.lots := rfl
@[simp] theorem State.withClock_sweeps (c : DayClock) : (s.withClock c).sweeps = s.sweeps := rfl
@[simp] theorem State.withClock_attention (c : DayClock) : (s.withClock c).attention = s.attention := rfl
@[simp] theorem State.withClock_status (c : DayClock) : (s.withClock c).status = s.status := rfl

/-! ### withSweeps -/

@[simp] theorem State.withSweeps_pending (e : SweepEngine) : (s.withSweeps e).pending = s.pending := rfl
@[simp] theorem State.withSweeps_lines (e : SweepEngine) : (s.withSweeps e).lines = s.lines := rfl
@[simp] theorem State.withSweeps_ports (e : SweepEngine) : (s.withSweeps e).ports = s.ports := rfl
@[simp] theorem State.withSweeps_queues (e : SweepEngine) : (s.withSweeps e).queues = s.queues := rfl
@[simp] theorem State.withSweeps_store (e : SweepEngine) : (s.withSweeps e).store = s.store := rfl
@[simp] theorem State.withSweeps_policies (e : SweepEngine) : (s.withSweeps e).policies = s.policies := rfl
@[simp] theorem State.withSweeps_lots (e : SweepEngine) : (s.withSweeps e).lots = s.lots := rfl
@[simp] theorem State.withSweeps_clock (e : SweepEngine) : (s.withSweeps e).clock = s.clock := rfl
@[simp] theorem State.withSweeps_attention (e : SweepEngine) : (s.withSweeps e).attention = s.attention := rfl
@[simp] theorem State.withSweeps_status (e : SweepEngine) : (s.withSweeps e).status = s.status := rfl

/-! ### withAttention -/

@[simp] theorem State.withAttention_pending (a : AttentionList) : (s.withAttention a).pending = s.pending := rfl
@[simp] theorem State.withAttention_lines (a : AttentionList) : (s.withAttention a).lines = s.lines := rfl
@[simp] theorem State.withAttention_ports (a : AttentionList) : (s.withAttention a).ports = s.ports := rfl
@[simp] theorem State.withAttention_queues (a : AttentionList) : (s.withAttention a).queues = s.queues := rfl
@[simp] theorem State.withAttention_store (a : AttentionList) : (s.withAttention a).store = s.store := rfl
@[simp] theorem State.withAttention_policies (a : AttentionList) : (s.withAttention a).policies = s.policies := rfl
@[simp] theorem State.withAttention_lots (a : AttentionList) : (s.withAttention a).lots = s.lots := rfl
@[simp] theorem State.withAttention_clock (a : AttentionList) : (s.withAttention a).clock = s.clock := rfl
@[simp] theorem State.withAttention_sweeps (a : AttentionList) : (s.withAttention a).sweeps = s.sweeps := rfl
@[simp] theorem State.withAttention_status (a : AttentionList) : (s.withAttention a).status = s.status := rfl

/-! ### withPolicy -/

@[simp] theorem State.withPolicy_pending (t : ProcessType) (r : PolicyRecord) : (s.withPolicy t r).pending = s.pending := rfl
@[simp] theorem State.withPolicy_lines (t : ProcessType) (r : PolicyRecord) : (s.withPolicy t r).lines = s.lines := rfl
@[simp] theorem State.withPolicy_ports (t : ProcessType) (r : PolicyRecord) : (s.withPolicy t r).ports = s.ports := rfl
@[simp] theorem State.withPolicy_queues (t : ProcessType) (r : PolicyRecord) : (s.withPolicy t r).queues = s.queues := rfl
@[simp] theorem State.withPolicy_store (t : ProcessType) (r : PolicyRecord) : (s.withPolicy t r).store = s.store := rfl
@[simp] theorem State.withPolicy_lots (t : ProcessType) (r : PolicyRecord) : (s.withPolicy t r).lots = s.lots := rfl
@[simp] theorem State.withPolicy_clock (t : ProcessType) (r : PolicyRecord) : (s.withPolicy t r).clock = s.clock := rfl
@[simp] theorem State.withPolicy_sweeps (t : ProcessType) (r : PolicyRecord) : (s.withPolicy t r).sweeps = s.sweeps := rfl
@[simp] theorem State.withPolicy_attention (t : ProcessType) (r : PolicyRecord) : (s.withPolicy t r).attention = s.attention := rfl
@[simp] theorem State.withPolicy_status (t : ProcessType) (r : PolicyRecord) : (s.withPolicy t r).status = s.status := rfl

/-! ### withPending -/

@[simp] theorem State.withPending_lines (q : List Instr) : (s.withPending q).lines = s.lines := rfl
@[simp] theorem State.withPending_ports (q : List Instr) : (s.withPending q).ports = s.ports := rfl
@[simp] theorem State.withPending_queues (q : List Instr) : (s.withPending q).queues = s.queues := rfl
@[simp] theorem State.withPending_store (q : List Instr) : (s.withPending q).store = s.store := rfl
@[simp] theorem State.withPending_policies (q : List Instr) : (s.withPending q).policies = s.policies := rfl
@[simp] theorem State.withPending_lots (q : List Instr) : (s.withPending q).lots = s.lots := rfl
@[simp] theorem State.withPending_clock (q : List Instr) : (s.withPending q).clock = s.clock := rfl
@[simp] theorem State.withPending_sweeps (q : List Instr) : (s.withPending q).sweeps = s.sweeps := rfl
@[simp] theorem State.withPending_attention (q : List Instr) : (s.withPending q).attention = s.attention := rfl
@[simp] theorem State.withPending_status (q : List Instr) : (s.withPending q).status = s.status := rfl

/-! ### pushVerdict -/

@[simp] theorem State.pushVerdict_pending (v : Verdict) : (s.pushVerdict v).pending = s.pending := rfl
@[simp] theorem State.pushVerdict_lines (v : Verdict) : (s.pushVerdict v).lines = s.lines := rfl
@[simp] theorem State.pushVerdict_ports (v : Verdict) : (s.pushVerdict v).ports = s.ports := rfl
@[simp] theorem State.pushVerdict_store (v : Verdict) : (s.pushVerdict v).store = s.store := rfl
@[simp] theorem State.pushVerdict_policies (v : Verdict) : (s.pushVerdict v).policies = s.policies := rfl
@[simp] theorem State.pushVerdict_lots (v : Verdict) : (s.pushVerdict v).lots = s.lots := rfl
@[simp] theorem State.pushVerdict_clock (v : Verdict) : (s.pushVerdict v).clock = s.clock := rfl
@[simp] theorem State.pushVerdict_sweeps (v : Verdict) : (s.pushVerdict v).sweeps = s.sweeps := rfl
@[simp] theorem State.pushVerdict_attention (v : Verdict) : (s.pushVerdict v).attention = s.attention := rfl
@[simp] theorem State.pushVerdict_status (v : Verdict) : (s.pushVerdict v).status = s.status := rfl

/-! ### startSweep -/

@[simp] theorem State.startSweep_pending (k : SweepKind) : (s.startSweep k).pending = s.pending := rfl
@[simp] theorem State.startSweep_lines (k : SweepKind) : (s.startSweep k).lines = s.lines := rfl
@[simp] theorem State.startSweep_ports (k : SweepKind) : (s.startSweep k).ports = s.ports := rfl
@[simp] theorem State.startSweep_queues (k : SweepKind) : (s.startSweep k).queues = s.queues := rfl
@[simp] theorem State.startSweep_store (k : SweepKind) : (s.startSweep k).store = s.store := rfl
@[simp] theorem State.startSweep_policies (k : SweepKind) : (s.startSweep k).policies = s.policies := rfl
@[simp] theorem State.startSweep_lots (k : SweepKind) : (s.startSweep k).lots = s.lots := rfl
@[simp] theorem State.startSweep_clock (k : SweepKind) : (s.startSweep k).clock = s.clock := rfl
@[simp] theorem State.startSweep_attention (k : SweepKind) : (s.startSweep k).attention = s.attention := rfl
@[simp] theorem State.startSweep_status (k : SweepKind) : (s.startSweep k).status = s.status := rfl

/-! ### addLane -/

@[simp] theorem State.addLane_pending (n : Nat) (l : Lane) : (s.addLane n l).pending = s.pending := rfl
@[simp] theorem State.addLane_lines (n : Nat) (l : Lane) : (s.addLane n l).lines = s.lines := rfl
@[simp] theorem State.addLane_ports (n : Nat) (l : Lane) : (s.addLane n l).ports = s.ports := rfl
@[simp] theorem State.addLane_queues (n : Nat) (l : Lane) : (s.addLane n l).queues = s.queues := rfl
@[simp] theorem State.addLane_clock (n : Nat) (l : Lane) : (s.addLane n l).clock = s.clock := rfl
@[simp] theorem State.addLane_sweeps (n : Nat) (l : Lane) : (s.addLane n l).sweeps = s.sweeps := rfl
@[simp] theorem State.addLane_attention (n : Nat) (l : Lane) : (s.addLane n l).attention = s.attention := rfl
@[simp] theorem State.addLane_status (n : Nat) (l : Lane) : (s.addLane n l).status = s.status := rfl

/-! ### endSweep -/

@[simp] theorem State.endSweep_pending (e : Ending) (w : Sweep) : (s.endSweep e w).pending = s.pending := rfl
@[simp] theorem State.endSweep_lines (e : Ending) (w : Sweep) : (s.endSweep e w).lines = s.lines := rfl
@[simp] theorem State.endSweep_ports (e : Ending) (w : Sweep) : (s.endSweep e w).ports = s.ports := rfl
@[simp] theorem State.endSweep_queues (e : Ending) (w : Sweep) : (s.endSweep e w).queues = s.queues := rfl
@[simp] theorem State.endSweep_store (e : Ending) (w : Sweep) : (s.endSweep e w).store = s.store := rfl
@[simp] theorem State.endSweep_policies (e : Ending) (w : Sweep) : (s.endSweep e w).policies = s.policies := rfl
@[simp] theorem State.endSweep_clock (e : Ending) (w : Sweep) : (s.endSweep e w).clock = s.clock := rfl
@[simp] theorem State.endSweep_status (e : Ending) (w : Sweep) : (s.endSweep e w).status = s.status := rfl

/-! ### What each update writes -/

@[simp] theorem State.withPort_port (p : Port) (x : PortState) : (s.withPort p x).port p = x := by cases p <;> rfl
@[simp] theorem State.withPort_framer (p : Port) (x : PortState) : (s.withPort p x).framer p = x.framer := by
  cases p <;> rfl
@[simp] theorem State.withFramer_framer (p : Port) (f : Framer) : (s.withFramer p f).framer p = f := by
  cases p <;> rfl
@[simp] theorem State.hold_framer (p : Port) (r : Reply) : (s.hold p r).framer p = .replyHeld r := by
  cases p <;> rfl

theorem State.withPort_port_ne (p q : Port) (x : PortState) (h : p ≠ q) : (s.withPort p x).port q = s.port q := by
  cases p <;> cases q <;> first | rfl | exact absurd rfl h

theorem State.withFramer_framer_ne (p q : Port) (f : Framer) (h : p ≠ q) :
    (s.withFramer p f).framer q = s.framer q := by
  cases p <;> cases q <;> first | rfl | exact absurd rfl h

theorem State.hold_framer_ne (p q : Port) (r : Reply) (h : p ≠ q) : (s.hold p r).framer q = s.framer q :=
  s.withFramer_framer_ne p q _ h

@[simp] theorem State.drive_supervisorEnable (line : Level) :
    (s.drive line).lines.supervisorEnable = line := rfl
@[simp] theorem State.drive_ready (line : Level) : (s.drive line).lines.ready = s.lines.ready := rfl
@[simp] theorem State.drive_resetAsserted (line : Level) :
    (s.drive line).lines.resetAsserted = s.lines.resetAsserted := rfl
@[simp] theorem State.drive_port (line : Level) (p : Port) : (s.drive line).port p = s.port p := by cases p <;> rfl
@[simp] theorem State.drive_framer (line : Level) (p : Port) : (s.drive line).framer p = s.framer p := by
  cases p <;> rfl
@[simp] theorem State.drive_lane (line : Level) (n : Nat) : (s.drive line).lane n = s.lane n := rfl
@[simp] theorem State.drive_laneAt (line : Level) (a b : Nat) : (s.drive line).laneAt a b = s.laneAt a b := rfl
@[simp] theorem State.drive_named (line : Level) (x : LaneName) : (s.drive line).named x = s.named x := rfl

@[simp] theorem State.putLane_pool (n : Nat) (l : Lane) :
    (s.putLane n l).store.pool = Table.put n l s.store.pool := rfl
@[simp] theorem State.putLane_occupiedLanes (n : Nat) (l : Lane) :
    (s.putLane n l).store.occupiedLanes = s.store.occupiedLanes := rfl
@[simp] theorem State.putLane_directory (n : Nat) (l : Lane) :
    (s.putLane n l).store.directory = s.store.directory := rfl
@[simp] theorem State.putLane_siteCount (n : Nat) (l : Lane) :
    (s.putLane n l).store.siteCount = s.store.siteCount := rfl

@[simp] theorem State.withLots_entries (t : Table Lot) : (s.withLots t).lots.entries = t := rfl
@[simp] theorem State.withLots_count (t : Table Lot) : (s.withLots t).lots.count = s.lots.count := rfl
@[simp] theorem State.withClock_clock (c : DayClock) : (s.withClock c).clock = c := rfl
@[simp] theorem State.withSweeps_sweeps (e : SweepEngine) : (s.withSweeps e).sweeps = e := rfl
@[simp] theorem State.withAttention_attention (a : AttentionList) : (s.withAttention a).attention = a := rfl
@[simp] theorem State.withPending_pending (q : List Instr) : (s.withPending q).pending = q := rfl
@[simp] theorem State.withPolicy_policies (t : ProcessType) (r : PolicyRecord) :
    (s.withPolicy t r).policies = s.policies.put t r := rfl
@[simp] theorem State.pushVerdict_intake (v : Verdict) : (s.pushVerdict v).queues.intake = s.queues.intake := rfl
@[simp] theorem State.pushVerdict_verdicts (v : Verdict) :
    (s.pushVerdict v).queues.verdicts = s.queues.verdicts ++ [v] := rfl
@[simp] theorem State.pushVerdict_ticketCounter (v : Verdict) :
    (s.pushVerdict v).queues.ticketCounter = s.queues.ticketCounter := rfl
@[simp] theorem State.startSweep_sweeps (k : SweepKind) :
    (s.startSweep k).sweeps = { s.sweeps with engine := .running (Sweep.start k .request) } := rfl

/-! ### Updates that leave the pool leave every lane -/

@[simp] theorem State.withPort_lane (p : Port) (x : PortState) (n : Nat) : (s.withPort p x).lane n = s.lane n := by
  cases p <;> rfl
@[simp] theorem State.withFramer_lane (p : Port) (f : Framer) (n : Nat) : (s.withFramer p f).lane n = s.lane n := by
  cases p <;> rfl
@[simp] theorem State.hold_lane (p : Port) (r : Reply) (n : Nat) : (s.hold p r).lane n = s.lane n := by
  cases p <;> rfl
@[simp] theorem State.withLots_lane (t : Table Lot) (n : Nat) : (s.withLots t).lane n = s.lane n := rfl
@[simp] theorem State.withClock_lane (c : DayClock) (n : Nat) : (s.withClock c).lane n = s.lane n := rfl
@[simp] theorem State.withSweeps_lane (e : SweepEngine) (n : Nat) : (s.withSweeps e).lane n = s.lane n := rfl
@[simp] theorem State.withAttention_lane (a : AttentionList) (n : Nat) : (s.withAttention a).lane n = s.lane n := rfl
@[simp] theorem State.withPolicy_lane (t : ProcessType) (r : PolicyRecord) (n : Nat) :
    (s.withPolicy t r).lane n = s.lane n := rfl
@[simp] theorem State.withPending_lane (q : List Instr) (n : Nat) : (s.withPending q).lane n = s.lane n := rfl
@[simp] theorem State.pushVerdict_lane (v : Verdict) (n : Nat) : (s.pushVerdict v).lane n = s.lane n := rfl
@[simp] theorem State.startSweep_lane (k : SweepKind) (n : Nat) : (s.startSweep k).lane n = s.lane n := rfl
@[simp] theorem State.endSweep_lane (e : Ending) (w : Sweep) (n : Nat) : (s.endSweep e w).lane n = s.lane n := rfl

/-! ### Accessors of the records with one value for each type, slot or point -/

@[simp] theorem PerType.get_put {α : Type} (x : PerType α) (t : ProcessType) (a : α) : (x.put t a).get t = a := by
  match t with
  | 0 | 1 | 2 | 3 | 4 | 5 | 6 | 7 => rfl

theorem PerType.get_put_ne {α : Type} (x : PerType α) (t u : ProcessType) (a : α) (h : t ≠ u) :
    (x.put t a).get u = x.get u := by
  match t, u with
  | 0, 0 | 1, 1 | 2, 2 | 3, 3 | 4, 4 | 5, 5 | 6, 6 | 7, 7 => exact absurd rfl h
  | 0, 1 | 0, 2 | 0, 3 | 0, 4 | 0, 5 | 0, 6 | 0, 7 => rfl
  | 1, 0 | 1, 2 | 1, 3 | 1, 4 | 1, 5 | 1, 6 | 1, 7 => rfl
  | 2, 0 | 2, 1 | 2, 3 | 2, 4 | 2, 5 | 2, 6 | 2, 7 => rfl
  | 3, 0 | 3, 1 | 3, 2 | 3, 4 | 3, 5 | 3, 6 | 3, 7 => rfl
  | 4, 0 | 4, 1 | 4, 2 | 4, 3 | 4, 5 | 4, 6 | 4, 7 => rfl
  | 5, 0 | 5, 1 | 5, 2 | 5, 3 | 5, 4 | 5, 6 | 5, 7 => rfl
  | 6, 0 | 6, 1 | 6, 2 | 6, 3 | 6, 4 | 6, 5 | 6, 7 => rfl
  | 7, 0 | 7, 1 | 7, 2 | 7, 3 | 7, 4 | 7, 5 | 7, 6 => rfl

@[simp] theorem Slots.get_put {α : Type} (x : Slots α) (i : SlotNumber) (a : α) : (x.put i a).get i = a := by
  match i with
  | 0 | 1 | 2 | 3 => rfl

theorem Slots.get_put_ne {α : Type} (x : Slots α) (i j : SlotNumber) (a : α) (h : i ≠ j) :
    (x.put i a).get j = x.get j := by
  match i, j with
  | 0, 0 | 1, 1 | 2, 2 | 3, 3 => exact absurd rfl h
  | 0, 1 | 0, 2 | 0, 3 | 1, 0 | 1, 2 | 1, 3 | 2, 0 | 2, 1 | 2, 3 | 3, 0 | 3, 1 | 3, 2 => rfl

/-- A slot of four empty slots is empty, and only four empty slots have every slot empty. -/
theorem Slots.eq_vacant_iff (x : Slots (Option Nat)) : x = Slots.vacant ↔ ∀ i, x.get i = none := by
  constructor
  · rintro rfl i
    match i with
    | 0 | 1 | 2 | 3 => rfl
  · intro h
    obtain ⟨a, b, c, d⟩ := x
    have h0 := h 0; have h1 := h 1; have h2 := h 2; have h3 := h 3
    simp only [Slots.get] at h0 h1 h2 h3
    subst h0; subst h1; subst h2; subst h3
    rfl

@[simp] theorem pick_ofFn {α : Type} (f : Point → α) (p : Point) : (Points.ofFn f).pick p = f p := by
  obtain ⟨c, q⟩ := p; cases c <;> cases q <;> rfl

@[simp] theorem pick_all {α : Type} (a : α) (p : Point) : (Points.all a).pick p = a := pick_ofFn _ p

/-- Twelve-valued fields that agree at every point are equal. -/
theorem points_ext {α : Type} {x y : Points α} (h : ∀ p, x.pick p = y.pick p) : x = y := by
  obtain ⟨⟨a, b, c, d⟩, ⟨e, f, g, i⟩, ⟨j, k, l, m⟩⟩ := x
  obtain ⟨⟨a', b', c', d'⟩, ⟨e', f', g', i'⟩, ⟨j', k', l', m'⟩⟩ := y
  have h1 := fun q => h ⟨.r, q⟩
  have h2 := fun q => h ⟨.g, q⟩
  have h3 := fun q => h ⟨.b, q⟩
  have e1 := h1 .fog; have e2 := h1 .speed; have e3 := h1 .contrast; have e4 := h1 .dmax
  have e5 := h2 .fog; have e6 := h2 .speed; have e7 := h2 .contrast; have e8 := h2 .dmax
  have e9 := h3 .fog; have e10 := h3 .speed; have e11 := h3 .contrast; have e12 := h3 .dmax
  simp only [Points.pick, Channels.get, Quantities.get] at e1 e2 e3 e4 e5 e6 e7 e8 e9 e10 e11 e12
  simp only [e1, e2, e3, e4, e5, e6, e7, e8, e9, e10, e11, e12]

/-- The order lists every point. -/
theorem mem_order (p : Point) : p ∈ Point.order := by
  obtain ⟨c, q⟩ := p; cases c <;> cases q <;> decide

theorem mem_toList_iff {α : Type} (x : Points α) (a : α) : a ∈ x.toList ↔ ∃ p, x.pick p = a := by
  constructor
  · intro h
    obtain ⟨p, -, hp⟩ := List.mem_map.mp h
    exact ⟨p, hp⟩
  · rintro ⟨p, rfl⟩
    exact List.mem_map.mpr ⟨p, mem_order p, rfl⟩

end Sys2Proof.Machine
end

