-- ==== Sys2Proof/Laws/Table.lean ====
section
/-! SUPPORT. What the operations over numbered records do, and that each keeps the canonical form. -/
namespace Sys2Proof.Machine

variable {α : Type}

/-! ### The canonical form -/

theorem Table.wf_nil : Table.wf ([] : Table α) := List.Pairwise.nil

theorem Table.wf_tail {e : Nat × α} {t : Table α} (h : Table.wf (e :: t)) : Table.wf t := (List.pairwise_cons.mp h).2

theorem Table.mem_put {n : Nat} {x : α} {t : Table α} {e : Nat × α} (h : e ∈ Table.put n x t) :
    e = (n, x) ∨ e ∈ t := by
  induction t with
  | nil => exact .inl (by simpa [Table.put] using h)
  | cons y t ih =>
    obtain ⟨j, a⟩ := y
    simp only [Table.put] at h
    split at h
    · simpa using h
    · split at h
      · simp only [List.mem_cons] at h ⊢; tauto
      · simp only [List.mem_cons] at h ⊢
        rcases h with h | h
        · exact .inr (.inl h)
        · exact (ih h).imp id .inr

/-- Putting a record in keeps the canonical form. -/
theorem Table.wf_put (n : Nat) (x : α) (t : Table α) (h : Table.wf t) : Table.wf (Table.put n x t) := by
  induction t with
  | nil => simp [Table.put, Table.wf]
  | cons y t ih =>
    obtain ⟨j, a⟩ := y
    obtain ⟨hj, ht⟩ := List.pairwise_cons.mp h
    simp only [Table.put]
    split
    · rename_i hn
      refine List.pairwise_cons.mpr ⟨?_, h⟩
      intro e he
      rcases List.mem_cons.mp he with rfl | he
      · exact hn
      · exact Nat.lt_trans hn (hj e he)
    · split
      · rename_i hn
        exact List.pairwise_cons.mpr ⟨fun e he => hn ▸ hj e he, ht⟩
      · refine List.pairwise_cons.mpr ⟨?_, ih ht⟩
        intro e he
        rcases Table.mem_put he with rfl | he
        · show j < n; omega
        · exact hj e he

theorem Table.drop_sublist (n : Nat) (t : Table α) : (Table.drop n t).Sublist t := by
  induction t with
  | nil => exact .slnil
  | cons y t ih =>
    obtain ⟨j, a⟩ := y
    simp only [Table.drop]
    split
    · exact List.sublist_cons_self _ _
    · exact ih.cons_cons _

/-- Dropping a record keeps the canonical form. -/
theorem Table.wf_drop (n : Nat) (t : Table α) (h : Table.wf t) : Table.wf (Table.drop n t) :=
  h.sublist (Table.drop_sublist n t)

/-- A map that keeps the numbers keeps the canonical form. -/
theorem Table.wf_map (f : Nat × α → Nat × α) (hf : ∀ e, (f e).1 = e.1) (t : Table α) (h : Table.wf t) :
    Table.wf (t.map f) :=
  List.pairwise_map.mpr (h.imp fun {a b} hab => by rw [hf a, hf b]; exact hab)

/-- Changing a record keeps the canonical form. -/
theorem Table.wf_modify (n : Nat) (f : α → α) (t : Table α) (h : Table.wf t) : Table.wf (Table.modify n f t) :=
  Table.wf_map _ (fun e => by split <;> rfl) t h

/-! ### Reading after writing -/

@[simp] theorem Table.find_put_self (n : Nat) (x : α) (t : Table α) : Table.find n (Table.put n x t) = some x := by
  induction t with
  | nil => simp [Table.put, Table.find]
  | cons y t ih =>
    obtain ⟨j, a⟩ := y
    simp only [Table.put]
    split
    · simp [Table.find]
    · split
      · simp [Table.find]
      · rename_i h; simp [Table.find, ih, Ne.symm h]

theorem Table.find_put_ne (n m : Nat) (x : α) (t : Table α) (h : m ≠ n) :
    Table.find m (Table.put n x t) = Table.find m t := by
  induction t with
  | nil => simp [Table.put, Table.find, Ne.symm h]
  | cons y t ih =>
    obtain ⟨j, a⟩ := y
    simp only [Table.put]
    split
    · simp [Table.find, Ne.symm h]
    · split
      · rename_i hn; subst hn; simp [Table.find, Ne.symm h]
      · simp [Table.find, ih]

theorem Table.find_put (n m : Nat) (x : α) (t : Table α) :
    Table.find m (Table.put n x t) = if m = n then some x else Table.find m t := by
  split
  · rename_i h; subst h; exact Table.find_put_self ..
  · exact Table.find_put_ne _ _ _ _ (by assumption)

theorem Table.find_none_of_lt {n : Nat} {t : Table α} (h : ∀ e ∈ t, n < e.1) : Table.find n t = none := by
  induction t with
  | nil => rfl
  | cons y t ih =>
    obtain ⟨j, a⟩ := y
    have hj : n < j := h _ (List.mem_cons_self ..)
    simp only [Table.find, (Nat.ne_of_lt hj).symm, if_false]
    exact ih fun e he => h e (List.mem_cons_of_mem _ he)

theorem Table.find_drop_self (n : Nat) (t : Table α) (h : Table.wf t) : Table.find n (Table.drop n t) = none := by
  induction t with
  | nil => rfl
  | cons y t ih =>
    obtain ⟨j, a⟩ := y
    obtain ⟨hj, ht⟩ := List.pairwise_cons.mp h
    simp only [Table.drop]
    split
    · rename_i hn; subst hn; exact Table.find_none_of_lt hj
    · rename_i hn; simp [Table.find, hn, ih ht]

theorem Table.find_drop_ne (n m : Nat) (t : Table α) (h : m ≠ n) : Table.find m (Table.drop n t) = Table.find m t := by
  induction t with
  | nil => rfl
  | cons y t ih =>
    obtain ⟨j, a⟩ := y
    simp only [Table.drop]
    split
    · rename_i hn; subst hn; simp [Table.find, Ne.symm h]
    · simp [Table.find, ih]

theorem Table.find_map (f : Nat × α → α) (m : Nat) (t : Table α) :
    Table.find m (t.map fun e => (e.1, f e)) = (Table.find m t).map fun a => f (m, a) := by
  induction t with
  | nil => rfl
  | cons y t ih =>
    obtain ⟨j, a⟩ := y
    simp only [List.map_cons, Table.find]
    split
    · rename_i hj; subst hj; rfl
    · exact ih

theorem Table.find_modify (n m : Nat) (f : α → α) (t : Table α) :
    Table.find m (Table.modify n f t) = (Table.find m t).map fun a => if m = n then f a else a := by
  have : Table.modify n f t = t.map fun e => (e.1, if e.1 = n then f e.2 else e.2) := by
    unfold Table.modify
    exact List.map_congr_left fun e _ => by split <;> rfl
  rw [this, Table.find_map (fun e => if e.1 = n then f e.2 else e.2)]

/-! ### Membership -/

theorem Table.mem_of_find {n : Nat} {a : α} {t : Table α} (h : Table.find n t = some a) : (n, a) ∈ t := by
  induction t with
  | nil => simp [Table.find] at h
  | cons y t ih =>
    obtain ⟨j, b⟩ := y
    simp only [Table.find] at h
    split at h
    · rename_i hj; subst hj; cases h; exact List.mem_cons_self ..
    · exact List.mem_cons_of_mem _ (ih h)

theorem Table.find_of_mem {n : Nat} {a : α} {t : Table α} (hw : Table.wf t) (h : (n, a) ∈ t) :
    Table.find n t = some a := by
  induction t with
  | nil => cases h
  | cons y t ih =>
    obtain ⟨j, b⟩ := y
    obtain ⟨hj, ht⟩ := List.pairwise_cons.mp hw
    rcases List.mem_cons.mp h with h | h
    · cases h; simp [Table.find]
    · have hlt : j < n := hj _ h
      simp [Table.find, Nat.ne_of_lt hlt, ih ht h]

/-- In the canonical form, what is listed and what is found are the same. -/
theorem Table.find_eq_some_iff {n : Nat} {a : α} {t : Table α} (hw : Table.wf t) :
    Table.find n t = some a ↔ (n, a) ∈ t :=
  ⟨Table.mem_of_find, Table.find_of_mem hw⟩

/-! ### Lengths and counts -/

/-- A record put in adds its own weight to a count and takes away that of the record it replaces. -/
theorem Table.countP_put (p : Nat × α → Bool) (n : Nat) (x : α) (t : Table α) (hw : Table.wf t) :
    List.countP p (Table.put n x t) + ((Table.find n t).elim 0 fun y => (p (n, y)).toNat) =
      List.countP p t + (p (n, x)).toNat := by
  induction t with
  | nil => cases h : p (n, x) <;> simp [Table.put, Table.find, h]
  | cons y t ih =>
    obtain ⟨j, a⟩ := y
    obtain ⟨hj, ht⟩ := List.pairwise_cons.mp hw
    simp only [Table.put]
    split
    · rename_i hn
      have : Table.find n ((j, a) :: t) = none := Table.find_none_of_lt fun e he => by
        rcases List.mem_cons.mp he with rfl | he
        · exact hn
        · exact Nat.lt_trans hn (hj e he)
      rw [this]
      cases h : p (n, x) <;> simp [List.countP_cons, h]
    · split
      · rename_i hn; subst hn
        simp only [Table.find, if_true, Option.elim, List.countP_cons]
        cases p (n, a) <;> cases p (n, x) <;> simp
      · rename_i h1 h2
        have := ih ht
        simp only [Table.find, List.countP_cons, Ne.symm h2, if_false]
        omega

theorem Table.countP_drop (p : Nat × α → Bool) (n : Nat) (t : Table α) :
    List.countP p (Table.drop n t) + ((Table.find n t).elim 0 fun y => (p (n, y)).toNat) = List.countP p t := by
  induction t with
  | nil => rfl
  | cons y t ih =>
    obtain ⟨j, a⟩ := y
    simp only [Table.drop]
    split
    · rename_i hn; subst hn
      cases h : p (j, a) <;> simp [Table.find, h]
    · rename_i hn
      simp only [Table.find, hn, if_false, List.countP_cons]
      omega

theorem Table.length_put_new (n : Nat) (x : α) (t : Table α) (hw : Table.wf t) (h : Table.find n t = none) :
    (Table.put n x t).length = t.length + 1 := by
  have := Table.countP_put (fun _ => true) n x t hw
  simpa [h] using this

theorem Table.length_put_old (n : Nat) (x y : α) (t : Table α) (hw : Table.wf t) (h : Table.find n t = some y) :
    (Table.put n x t).length = t.length := by
  have := Table.countP_put (fun _ => true) n x t hw
  simpa [h] using this

theorem Table.length_drop_old (n : Nat) (y : α) (t : Table α) (h : Table.find n t = some y) :
    (Table.drop n t).length + 1 = t.length := by
  have := Table.countP_drop (fun _ => true) n t
  simpa [h] using this

@[simp] theorem Table.length_modify (n : Nat) (f : α → α) (t : Table α) : (Table.modify n f t).length = t.length :=
  List.length_map ..

/-! ### The lowest vacant number, and the record above a number -/

/-- The number found is vacant, and every number from `n` up to it has a record (R6). -/
theorem Table.vacant_spec (n : Nat) (t : Table α) (hw : Table.wf t) (hn : ∀ e ∈ t, n ≤ e.1) :
    n ≤ Table.vacant n t ∧ Table.find (Table.vacant n t) t = none ∧
      ∀ m, n ≤ m → m < Table.vacant n t → (Table.find m t).isSome = true := by
  induction t generalizing n with
  | nil => exact ⟨Nat.le_refl _, rfl, fun m h1 h2 => absurd h2 (by simp only [Table.vacant]; omega)⟩
  | cons y t ih =>
    obtain ⟨j, a⟩ := y
    obtain ⟨hj, ht⟩ := List.pairwise_cons.mp hw
    simp only [Table.vacant]
    split
    · rename_i he; subst he
      obtain ⟨h1, h2, h3⟩ := ih (j + 1) ht fun e he => hj e he
      refine ⟨by omega, ?_, ?_⟩
      · rw [Table.find, if_neg (by omega), h2]
      · intro m hm1 hm2
        by_cases hmj : j = m
        · subst hmj; simp [Table.find]
        · rw [Table.find, if_neg hmj]; exact h3 m (by omega) hm2
    · rename_i he
      have hnj : n < j := Nat.lt_of_le_of_ne (hn _ (List.mem_cons_self ..)) (Ne.symm he)
      refine ⟨Nat.le_refl _, Table.find_none_of_lt fun e h => ?_, fun m h1 h2 => absurd h2 (by omega)⟩
      rcases List.mem_cons.mp h with rfl | h
      · exact hnj
      · exact Nat.lt_trans hnj (hj e h)

/-- The record above a number is the lowest of those above it (R23, R51). -/
theorem Table.above_spec (n : Nat) (t : Table α) (hw : Table.wf t) :
    match Table.above n t with
    | none => ∀ e ∈ t, e.1 ≤ n
    | some (m, a) => n < m ∧ Table.find m t = some a ∧ ∀ e ∈ t, n < e.1 → m ≤ e.1 := by
  unfold Table.above
  split
  · rename_i h
    intro e he
    have := List.find?_eq_none.mp h e he
    simpa using this
  · rename_i m a h
    have hm : n < m := by simpa using List.find?_some h
    have hmem := List.mem_of_find?_eq_some h
    refine ⟨hm, Table.find_of_mem hw hmem, ?_⟩
    obtain ⟨_, as, bs, rfl, hno⟩ := List.find?_eq_some_iff_append.mp h
    intro e he hne
    rcases List.mem_append.mp he with he | he
    · exact absurd hne (by simpa using hno e he)
    · rcases List.mem_cons.mp he with rfl | he
      · exact Nat.le_refl _
      · have := (List.pairwise_cons.mp (List.pairwise_append.mp hw).2.1).1 e he
        exact Nat.le_of_lt this

end Sys2Proof.Machine
end

