-- ==== Sys2Proof/Laws/Ops.lean ====
section
/-! SUPPORT. What each shared operation of Machine/Ops.lean does, said once: the taking of a request, the
directory, lots, the raising of causes, the end of a sweep. -/
namespace Sys2Proof.Machine

/-! ### Taking a request -/

theorem Takes.admission {p : Port} {r : Request} {s : State} (h : Takes p r s) : admission p r s = .taken := by
  obtain ⟨h1, h2, h3, h4⟩ := h
  unfold Machine.admission
  rw [h1, h2, h4]
  cases hf : s.framer p <;> simp_all [openTo]

theorem admission_eq_taken_iff (p : Port) (r : Request) (s : State) : admission p r s = .taken ↔ Takes p r s := by
  refine ⟨fun h => ?_, Takes.admission⟩
  unfold Machine.admission at h
  unfold Takes
  cases h1 : s.lines.ready <;> cases h2 : s.lines.resetAsserted <;> cases hf : s.framer p <;>
    cases h4 : structureOk r <;> simp_all [openTo] <;> split at h <;> cases h

/-- A request that is taken: the block's state with the reply held (R175). -/
theorem serve_takes {p : Port} {r : Request} {block : State → Taken} {s : State} (h : Takes p r s) :
    serve p r block s = match block s with
      | .ok (t, reply) => .next (t.hold p reply)
      | .error f => .fault f := by
  cases hb : block s <;> simp only [serve, h.admission, hb]

theorem serve_takes_ok {p : Port} {r : Request} {block : State → Taken} {s t : State} {reply : Reply}
    (h : Takes p r s) (hb : block s = .ok (t, reply)) : serve p r block s = .next (t.hold p reply) := by
  rw [serve_takes h, hb]

/-- Driving SUPERVISOR ENABLE does not change whether a request is taken. -/
theorem Takes.drive {p : Port} {r : Request} {s : State} (h : Takes p r s) (line : Level) :
    Takes p r (s.drive line) := by
  unfold Takes at h ⊢
  simpa using h

/-- While RESET is asserted a request does nothing (R184). -/
theorem serve_reset {p : Port} {r : Request} {block : State → Taken} {s : State}
    (h : s.lines.resetAsserted = true) : serve p r block s = .next s := by
  simp [serve, admission, h]

/-- While another request stands ANSWERING a request does nothing (R173). -/
theorem serve_busy {p : Port} {r : Request} {block : State → Taken} {s : State}
    (hr : s.lines.resetAsserted = false) (h : openTo r (s.framer p) = false) : serve p r block s = .next s := by
  unfold serve admission
  cases hf : s.framer p <;> simp_all [openTo]

/-- A request that fails the framer's checks (R174). -/
theorem serve_malformed {p : Port} {r : Request} {block : State → Taken} {s : State}
    (hr : s.lines.resetAsserted = false) (h : openTo r (s.framer p) = true) (hs : structureOk r = false) :
    serve p r block s = .next (s.hold p (.bare .malformed)) := by
  unfold serve admission
  cases hf : s.framer p <;> simp_all [openTo]

/-- A request while READY is low (R175, R182). -/
theorem serve_notReady {p : Port} {r : Request} {block : State → Taken} {s : State}
    (hr : s.lines.resetAsserted = false) (h : openTo r (s.framer p) = true) (hs : structureOk r = true)
    (hy : s.lines.ready = false) : serve p r block s = .next (s.hold p (.bare .notReady)) := by
  unfold serve admission
  cases hf : s.framer p <;> simp_all [openTo]

/-- Everything a request command can come to when it answers a next state. -/
theorem serve_next {p : Port} {r : Request} {block : State → Taken} {s t : State}
    (h : serve p r block s = .next t) :
    t = s ∨ (∃ code, t = s.hold p (.bare code)) ∨
      (Takes p r s ∧ ∃ u reply, block s = .ok (u, reply) ∧ t = u.hold p reply) := by
  unfold serve at h
  split at h
  · exact .inl (by cases h; rfl)
  · rename_i code _; exact .inr (.inl ⟨code, by cases h; rfl⟩)
  · rename_i ha
    split at h
    · rename_i u reply hb
      exact .inr (.inr ⟨(admission_eq_taken_iff p r s).mp ha, u, reply, hb, by cases h; rfl⟩)
    · cases h

/-- A request command never refuses. -/
theorem serve_not_refused (p : Port) (r : Request) (block : State → Taken) (s : State) (x : Refusal) :
    serve p r block s ≠ .refused x := by
  unfold serve
  split
  · nofun
  · nofun
  · split <;> nofun

/-- Everything naming a lane can come to (R11). -/
theorem onLane_cases (name : LaneName) (act : Nat → Lane → State → Taken) (s : State) :
    (s.named name = .malformed ∧ onLane name act s = .ok (s, .bare .malformed)) ∨
    (s.named name = .noLane ∧ onLane name act s = .ok (s, .bare .noLane)) ∨
    (∃ n l, s.named name = .lane n l ∧ onLane name act s = act n l s) := by
  unfold onLane
  split
  · exact .inl ⟨by assumption, rfl⟩
  · exact .inr (.inl ⟨by assumption, rfl⟩)
  · rename_i n l _; exact .inr (.inr ⟨n, l, by assumption, rfl⟩)

/-- The lane a request names stands at its place. -/
theorem lane_of_laneAt {s : State} {a b n : Nat} {l : Lane} (h : s.laneAt a b = some (n, l)) : s.lane n = some l := by
  unfold State.laneAt at h
  split at h
  · cases h
  · split at h
    · cases h
    · rename_i m _
      cases hl : s.lane m with
      | none => rw [hl] at h; cases h
      | some x => rw [hl] at h; cases h; exact hl

theorem lane_of_named {s : State} {x : LaneName} {n : Nat} {l : Lane} (h : s.named x = .lane n l) :
    s.lane n = some l := by
  unfold State.named at h
  split at h
  · split at h
    · cases h
    · split at h
      · rename_i heq; cases h; exact lane_of_laneAt heq
      · cases h
  · split at h
    · cases h
    · split at h
      · rename_i heq; cases h; exact heq
      · cases h

/-! ### The pool -/

/-- Reading a lane after one is written (R1). -/
theorem putLane_lane (s : State) (n m : Nat) (l : Lane) :
    (s.putLane n l).lane m = if m = n then some l else s.lane m := Table.find_put n m l s.store.pool

@[simp] theorem putLane_lane_self (s : State) (n : Nat) (l : Lane) : (s.putLane n l).lane n = some l := by
  simp [putLane_lane]

theorem putLane_lane_ne (s : State) {n m : Nat} (l : Lane) (h : m ≠ n) : (s.putLane n l).lane m = s.lane m := by
  simp [putLane_lane, h]

/-! ### The Site Directory (R8) -/

/-- A store that is found is the store of the entry at the position found. -/
theorem searchSites_found {store n : Nat} {d : List Site} (h : searchSites store d = .found n) :
    ∃ e, d[n]? = some e ∧ e.store = store := by
  induction d generalizing n with
  | nil => cases h
  | cons e d ih =>
    simp only [searchSites] at h
    split at h
    · rename_i he; cases h; exact ⟨e, rfl, he⟩
    · split at h
      · cases h
      · cases hs : searchSites store d with
        | found m => rw [hs] at h; cases h; exact ih hs
        | notFound m => rw [hs] at h; cases h

/-- In ascending order a store that is not found has no entry; its position is after every entry with a smaller
store number and before every entry with a larger one. -/
theorem searchSites_notFound {store n : Nat} {d : List Site} (hd : d.Pairwise fun a b => a.store < b.store)
    (h : searchSites store d = .notFound n) :
    n ≤ d.length ∧ (∀ e ∈ d.take n, e.store < store) ∧ (∀ e ∈ d.drop n, store < e.store) := by
  induction d generalizing n with
  | nil => cases h; simp
  | cons e d ih =>
    obtain ⟨he, hd⟩ := List.pairwise_cons.mp hd
    simp only [searchSites] at h
    split at h
    · cases h
    · rename_i hne
      split at h
      · rename_i hlt; cases h
        refine ⟨Nat.zero_le _, by simp, ?_⟩
        intro x hx
        rcases List.mem_cons.mp (by simpa using hx) with rfl | hx
        · exact hlt
        · exact Nat.lt_trans hlt (he x hx)
      · rename_i hlt
        cases hs : searchSites store d with
        | found m => rw [hs] at h; cases h
        | notFound m =>
          rw [hs] at h; cases h
          obtain ⟨h1, h2, h3⟩ := ih hd hs
          refine ⟨by simpa using h1, ?_, by simpa using h3⟩
          intro x hx
          rcases List.mem_cons.mp (by simpa using hx) with rfl | hx
          · omega
          · exact h2 x hx

/-- The slots read for a store are those of its entry. -/
theorem siteSlots_mem {store : Nat} {d : List Site} {x : Slots (Option Nat)} (h : siteSlots store d = some x) :
    ∃ e ∈ d, e.store = store ∧ e.slots = x := by
  unfold siteSlots at h
  split at h
  · rename_i n hn
    obtain ⟨e, he, hs⟩ := searchSites_found hn
    rw [he] at h
    cases h
    exact ⟨e, List.mem_of_getElem? he, hs, rfl⟩
  · cases h

/-- In ascending order the slots of an entry are those read for its store. -/
theorem siteSlots_of_mem {d : List Site} {e : Site} (hd : d.Pairwise fun a b => a.store < b.store) (he : e ∈ d) :
    siteSlots e.store d = some e.slots := by
  cases hs : searchSites e.store d with
  | found n =>
    obtain ⟨e', h1, h2⟩ := searchSites_found hs
    have hmem := List.mem_of_getElem? h1
    have : e' = e := by
      by_contra hne
      rcases List.pairwise_iff_getElem.mp hd with hp
      obtain ⟨i, hi, rfl⟩ := List.getElem_of_mem he
      obtain ⟨j, hj, rfl⟩ := List.getElem_of_mem hmem
      rcases Nat.lt_trichotomy i j with hij | hij | hij
      · have := hp i j hi hj hij; omega
      · subst hij; exact hne rfl
      · have := hp j i hj hi hij; omega
    simp [siteSlots, hs, h1, this]
  | notFound n =>
    obtain ⟨-, h2, h3⟩ := searchSites_notFound hd hs
    rw [← List.take_append_drop n d] at he
    rcases List.mem_append.mp he with he | he
    · exact absurd (h2 e he) (by omega)
    · exact absurd (h3 e he) (by omega)

/-! ### Lots (R43) -/

theorem find_addUser (n m : Nat) (t : Table Lot) :
    Table.find m (addUser n t) =
      (Table.find m t).map fun l => if m = n then { l with users := l.users + 1 } else l := Table.find_modify ..

theorem find_dropUser (n m : Nat) (t : Table Lot) :
    Table.find m (dropUser n t) =
      (Table.find m t).map fun l => if m = n then { l with users := l.users - 1 } else l := Table.find_modify ..

theorem find_setLotState (n m : Nat) (st : LotState) (t : Table Lot) :
    Table.find m (setLotState n st t) =
      (Table.find m t).map fun l => if m = n then { l with state := st } else l := Table.find_modify ..

theorem wf_addUser {n : Nat} {t : Table Lot} (h : Table.wf t) : Table.wf (addUser n t) := Table.wf_modify _ _ _ h
theorem wf_dropUser {n : Nat} {t : Table Lot} (h : Table.wf t) : Table.wf (dropUser n t) := Table.wf_modify _ _ _ h
theorem wf_setLotState {n : Nat} {st : LotState} {t : Table Lot} (h : Table.wf t) : Table.wf (setLotState n st t) :=
  Table.wf_modify _ _ _ h

theorem wf_dropUser? {n : Option Nat} {t : Table Lot} (h : Table.wf t) : Table.wf (dropUser? n t) := by
  cases n with
  | none => exact h
  | some n => exact wf_dropUser h

theorem wf_promoteLot {n : Nat} {t : Table Lot} (h : Table.wf t) : Table.wf (promoteLot n t) := by
  unfold promoteLot
  split
  · exact h
  · exact Table.wf_map _ (fun e => by split <;> [rfl; split <;> rfl]) t h

/-- The completion of a rollout, lot by lot (R46). -/
theorem find_promoteLot (n m : Nat) (t : Table Lot) :
    Table.find m (promoteLot n t) = match Table.find n t with
      | none => Table.find m t
      | some rolling => (Table.find m t).map fun l =>
          if m = n then { l with state := .current }
          else if l.type = rolling.type ∧ l.state = .current then { l with state := .superseded }
          else l := by
  cases hn : Table.find n t with
  | none => simp only [promoteLot, hn]
  | some rolling =>
    simp only [promoteLot, hn]
    refine Eq.trans ?_ (Table.find_map (fun e : Nat × Lot => if e.1 = n then { e.2 with state := .current }
      else if e.2.type = rolling.type ∧ e.2.state = .current then { e.2 with state := .superseded } else e.2) m t)
    congr 1
    exact List.map_congr_left fun e _ => by split <;> [rfl; split <;> rfl]

/-- The lot of a type in a state is in the table, of that type and in that state. -/
theorem lotInState_some {type : ProcessType} {st : LotState} {t : Table Lot} {n : Nat} (hw : Table.wf t)
    (h : lotInState type st t = some n) : ∃ e, Table.find n t = some e ∧ e.type = type ∧ e.state = st := by
  unfold lotInState at h
  obtain ⟨⟨m, e⟩, he, rfl⟩ := Option.map_eq_some_iff.mp h
  have hp := List.find?_some he
  simp only [Bool.and_eq_true, decide_eq_true_eq] at hp
  exact ⟨e, Table.find_of_mem hw (List.mem_of_find?_eq_some he), hp.1, hp.2⟩

theorem lotInState_none {type : ProcessType} {st : LotState} {t : Table Lot}
    (h : lotInState type st t = none) {n : Nat} {e : Lot} (he : Table.find n t = some e) :
    ¬(e.type = type ∧ e.state = st) := by
  unfold lotInState at h
  have := List.find?_eq_none.mp (Option.map_eq_none_iff.mp h) (n, e) (Table.mem_of_find he)
  simpa using this

/-! ### The Attention List (R161, R168) -/

@[simp] theorem AttentionList.owe_order (a : AttentionList) : a.owe.order = a.order := by
  unfold AttentionList.owe; split <;> rfl
@[simp] theorem AttentionList.owe_length (a : AttentionList) : a.owe.length = a.length := by
  unfold AttentionList.owe; split <;> rfl
@[simp] theorem AttentionList.owe_mode (a : AttentionList) : a.owe.mode = a.mode := by
  unfold AttentionList.owe; split <;> rfl
@[simp] theorem AttentionList.owe_pulseInProgress (a : AttentionList) :
    a.owe.pulseInProgress = a.pulseInProgress := by
  unfold AttentionList.owe; split <;> rfl
@[simp] theorem AttentionList.join_order (a : AttentionList) (n : Nat) : (a.join n).order = a.order ++ [n] := by
  simp [AttentionList.join]
@[simp] theorem AttentionList.join_length (a : AttentionList) (n : Nat) : (a.join n).length = a.length + 1 := by
  simp [AttentionList.join]
@[simp] theorem AttentionList.join_mode (a : AttentionList) (n : Nat) : (a.join n).mode = a.mode := by
  simp [AttentionList.join]
@[simp] theorem AttentionList.join_pulseInProgress (a : AttentionList) (n : Nat) :
    (a.join n).pulseInProgress = a.pulseInProgress := by
  simp [AttentionList.join]
@[simp] theorem AttentionList.leave_mode (a : AttentionList) (n : Nat) : (a.leave n).mode = a.mode := by
  unfold AttentionList.leave; split <;> rfl
@[simp] theorem AttentionList.leave_pulsesOwed (a : AttentionList) (n : Nat) :
    (a.leave n).pulsesOwed = a.pulsesOwed := by
  unfold AttentionList.leave; split <;> rfl

/-- A set with a cause added holds it. -/
@[simp] theorem Causes.has_add (m : Causes) (c : Cause) : (m.add c).has c = true := by cases c <;> rfl

theorem Causes.has_add_ne (m : Causes) {c d : Cause} (h : d ≠ c) : (m.add c).has d = m.has d := by
  cases c <;> cases d <;> first | rfl | exact absurd rfl h

theorem Causes.add_ne_empty (m : Causes) (c : Cause) : m.add c ≠ .empty := by
  intro h
  have := Causes.has_add m c
  rw [h] at this
  cases c <;> cases this

/-- Everything a raise can do (R161): nothing, a join at the tail, or a merge. -/
theorem raise_cases (s : State) (mask : Causes) (n : Nat) (c : Cause) :
    s.raise mask n c = s ∨
    (∃ l, s.lane n = some l ∧ l.causes = .empty ∧ s.raise mask n c =
      (s.putLane n { l with causes := l.causes.add c, joined := some ⟨s.clock.day, s.clock.minute⟩ }).withAttention
        (s.attention.join n)) ∨
    (∃ l, s.lane n = some l ∧ l.causes ≠ .empty ∧ s.raise mask n c =
      s.putLane n { l with causes := l.causes.add c }) := by
  unfold State.raise
  split
  · split
    · exact .inl rfl
    · rename_i l hl
      split
      · rename_i he; exact .inr (.inl ⟨l, hl, he, rfl⟩)
      · rename_i he; exact .inr (.inr ⟨l, hl, he, rfl⟩)
  · exact .inl rfl

@[simp] theorem State.raise_pending (s : State) (m : Causes) (n : Nat) (c : Cause) :
    (s.raise m n c).pending = s.pending := by
  rcases raise_cases s m n c with h | ⟨_, _, _, h⟩ | ⟨_, _, _, h⟩ <;> rw [h] <;> rfl
@[simp] theorem State.raise_lines (s : State) (m : Causes) (n : Nat) (c : Cause) : (s.raise m n c).lines = s.lines := by
  rcases raise_cases s m n c with h | ⟨_, _, _, h⟩ | ⟨_, _, _, h⟩ <;> rw [h] <;> rfl
@[simp] theorem State.raise_ports (s : State) (m : Causes) (n : Nat) (c : Cause) : (s.raise m n c).ports = s.ports := by
  rcases raise_cases s m n c with h | ⟨_, _, _, h⟩ | ⟨_, _, _, h⟩ <;> rw [h] <;> rfl
@[simp] theorem State.raise_queues (s : State) (m : Causes) (n : Nat) (c : Cause) :
    (s.raise m n c).queues = s.queues := by
  rcases raise_cases s m n c with h | ⟨_, _, _, h⟩ | ⟨_, _, _, h⟩ <;> rw [h] <;> rfl
@[simp] theorem State.raise_policies (s : State) (m : Causes) (n : Nat) (c : Cause) :
    (s.raise m n c).policies = s.policies := by
  rcases raise_cases s m n c with h | ⟨_, _, _, h⟩ | ⟨_, _, _, h⟩ <;> rw [h] <;> rfl
@[simp] theorem State.raise_lots (s : State) (m : Causes) (n : Nat) (c : Cause) : (s.raise m n c).lots = s.lots := by
  rcases raise_cases s m n c with h | ⟨_, _, _, h⟩ | ⟨_, _, _, h⟩ <;> rw [h] <;> rfl
@[simp] theorem State.raise_clock (s : State) (m : Causes) (n : Nat) (c : Cause) : (s.raise m n c).clock = s.clock := by
  rcases raise_cases s m n c with h | ⟨_, _, _, h⟩ | ⟨_, _, _, h⟩ <;> rw [h] <;> rfl
@[simp] theorem State.raise_sweeps (s : State) (m : Causes) (n : Nat) (c : Cause) :
    (s.raise m n c).sweeps = s.sweeps := by
  rcases raise_cases s m n c with h | ⟨_, _, _, h⟩ | ⟨_, _, _, h⟩ <;> rw [h] <;> rfl
@[simp] theorem State.raise_status (s : State) (m : Causes) (n : Nat) (c : Cause) :
    (s.raise m n c).status = s.status := by
  rcases raise_cases s m n c with h | ⟨_, _, _, h⟩ | ⟨_, _, _, h⟩ <;> rw [h] <;> rfl
@[simp] theorem State.raise_directory (s : State) (m : Causes) (n : Nat) (c : Cause) :
    (s.raise m n c).store.directory = s.store.directory := by
  rcases raise_cases s m n c with h | ⟨_, _, _, h⟩ | ⟨_, _, _, h⟩ <;> rw [h] <;> rfl
@[simp] theorem State.raise_occupiedLanes (s : State) (m : Causes) (n : Nat) (c : Cause) :
    (s.raise m n c).store.occupiedLanes = s.store.occupiedLanes := by
  rcases raise_cases s m n c with h | ⟨_, _, _, h⟩ | ⟨_, _, _, h⟩ <;> rw [h] <;> rfl
@[simp] theorem State.raise_siteCount (s : State) (m : Causes) (n : Nat) (c : Cause) :
    (s.raise m n c).store.siteCount = s.store.siteCount := by
  rcases raise_cases s m n c with h | ⟨_, _, _, h⟩ | ⟨_, _, _, h⟩ <;> rw [h] <;> rfl

/-- A raise leaves every other lane. -/
theorem raise_lane_ne (s : State) (m : Causes) {n k : Nat} (c : Cause) (h : k ≠ n) :
    (s.raise m n c).lane k = s.lane k := by
  rcases raise_cases s m n c with e | ⟨_, _, _, e⟩ | ⟨_, _, _, e⟩ <;> rw [e]
  · rw [State.withAttention_lane, putLane_lane_ne _ _ h]
  · rw [putLane_lane_ne _ _ h]

/-- A raise leaves the lane itself in every field but its cause set and join stamp. -/
theorem raise_lane_self (s : State) (m : Causes) (n : Nat) (c : Cause) (l : Lane) (hl : s.lane n = some l) :
    ∃ causes joined, (s.raise m n c).lane n = some { l with causes := causes, joined := joined } := by
  rcases raise_cases s m n c with e | ⟨x, hx, _, e⟩ | ⟨x, hx, _, e⟩ <;> rw [e]
  · exact ⟨l.causes, l.joined, hl⟩
  · rw [hx] at hl; cases hl
    exact ⟨_, _, by rw [State.withAttention_lane, putLane_lane_self]⟩
  · rw [hx] at hl; cases hl
    exact ⟨_, l.joined, putLane_lane_self ..⟩

/-- Raising the causes of an event leaves what one raise leaves. -/
theorem raiseAll_induction {motive : State → Prop} (m : Causes) (n : Nat)
    (step : ∀ s c, motive s → motive (s.raise m n c)) (cs : List Cause) (s : State) (h : motive s) :
    motive (s.raiseAll m n cs) := by
  induction cs generalizing s with
  | nil => exact h
  | cons c cs ih => exact ih _ (step s c h)

@[simp] theorem State.raiseAll_nil (s : State) (m : Causes) (n : Nat) : s.raiseAll m n [] = s := rfl
theorem State.raiseAll_cons (s : State) (m : Causes) (n : Nat) (c : Cause) (cs : List Cause) :
    s.raiseAll m n (c :: cs) = (s.raise m n c).raiseAll m n cs := rfl

theorem raiseAll_lane_ne (s : State) (m : Causes) {n k : Nat} (cs : List Cause) (h : k ≠ n) :
    (s.raiseAll m n cs).lane k = s.lane k :=
  raiseAll_induction (motive := fun t => t.lane k = s.lane k) m n
    (fun t c ht => (raise_lane_ne t m c h).trans ht) cs s rfl

/-- What raising causes leaves outside the pool and the list. -/
theorem raiseAll_frame (s : State) (m : Causes) (n : Nat) (cs : List Cause) :
    (s.raiseAll m n cs).pending = s.pending ∧ (s.raiseAll m n cs).lines = s.lines ∧
    (s.raiseAll m n cs).ports = s.ports ∧ (s.raiseAll m n cs).queues = s.queues ∧
    (s.raiseAll m n cs).policies = s.policies ∧ (s.raiseAll m n cs).lots = s.lots ∧
    (s.raiseAll m n cs).clock = s.clock ∧ (s.raiseAll m n cs).sweeps = s.sweeps ∧
    (s.raiseAll m n cs).status = s.status ∧ (s.raiseAll m n cs).store.directory = s.store.directory ∧
    (s.raiseAll m n cs).store.occupiedLanes = s.store.occupiedLanes ∧
    (s.raiseAll m n cs).store.siteCount = s.store.siteCount :=
  raiseAll_induction (motive := fun t => t.pending = s.pending ∧ t.lines = s.lines ∧ t.ports = s.ports ∧
      t.queues = s.queues ∧ t.policies = s.policies ∧ t.lots = s.lots ∧ t.clock = s.clock ∧ t.sweeps = s.sweeps ∧
      t.status = s.status ∧ t.store.directory = s.store.directory ∧
      t.store.occupiedLanes = s.store.occupiedLanes ∧ t.store.siteCount = s.store.siteCount)
    m n (fun t c ht => by simpa using ht) cs s (by simp)

/-! ### The end of a step and of a sweep (R145, R146) -/

/-- The engine after an ending, when no overdue check is pending. -/
theorem endSweep_idle (s : State) (e : Ending) (w : Sweep) (h : s.sweeps.pendingOverdue = false) :
    (s.endSweep e w).sweeps.engine = .idle := by
  simp [State.endSweep, h]

/-- A step that is not the last only moves the cursor and the step count. -/
theorem advance_within (s : State) (w : Sweep) (worked : Bool) (h : w.cursor + 1 < 1536) :
    s.advance w worked = s.withSweeps { s.sweeps with
      engine := .running { w with cursor := w.cursor + 1, steps := if worked then w.steps + 1 else w.steps } } := by
  simp [State.advance, Config.poolPlaces, h]

/-- The step at place 1535 completes the sweep. -/
theorem advance_last (s : State) (w : Sweep) (worked : Bool) (h : ¬ w.cursor + 1 < 1536) :
    s.advance w worked = s.endSweep .completed
      { w with cursor := w.cursor + 1, steps := if worked then w.steps + 1 else w.steps } := by
  simp [State.advance, Config.poolPlaces, h]

@[simp] theorem State.advance_store (s : State) (w : Sweep) (b : Bool) : (s.advance w b).store = s.store := by
  unfold State.advance; dsimp only; split <;> rfl
@[simp] theorem State.advance_queues (s : State) (w : Sweep) (b : Bool) : (s.advance w b).queues = s.queues := by
  unfold State.advance; dsimp only; split <;> rfl
@[simp] theorem State.advance_policies (s : State) (w : Sweep) (b : Bool) : (s.advance w b).policies = s.policies := by
  unfold State.advance; dsimp only; split <;> rfl
@[simp] theorem State.advance_clock (s : State) (w : Sweep) (b : Bool) : (s.advance w b).clock = s.clock := by
  unfold State.advance; dsimp only; split <;> rfl
@[simp] theorem State.advance_lane (s : State) (w : Sweep) (b : Bool) (n : Nat) :
    (s.advance w b).lane n = s.lane n := by
  unfold State.lane; rw [State.advance_store]

/-! ### Saturation, clamping -/

theorem saturate_le (top n : Nat) : saturate top n ≤ top := Nat.min_le_right ..

theorem saturate_of_lt {top n : Nat} (h : n < top) : saturate top n = n + 1 := Nat.min_eq_left h

theorem saturate_at_top (top : Nat) : saturate top top = top := Nat.min_eq_right (Nat.le_succ _)

theorem clamp_mem {low high x : Int} (h : low ≤ high) : low ≤ clamp low high x ∧ clamp low high x ≤ high := by
  unfold clamp; omega

theorem clamp_of_mem {low high x : Int} (h1 : low ≤ x) (h2 : x ≤ high) : clamp low high x = x := by
  unfold clamp; omega

end Sys2Proof.Machine
end

