-- ==== Sys2Proof/Laws/Causes.lean ====
section
/-! SUPPORT. What raising the causes of one event leaves on the lane and on the Attention List (R161, R162). -/
namespace Sys2Proof.Machine

theorem Causes.eq_empty {m : Causes} (h : ∀ x, m.has x = false) : m = .empty := by
  cases m
  have := And.intro (h .watch) (And.intro (h .drift) (And.intro (h .action) (And.intro (h .cleared)
    (And.intro (h .overdue) (And.intro (h .crossover) (h .lotRefused))))))
  simp only [Causes.has] at this
  obtain ⟨rfl, rfl, rfl, rfl, rfl, rfl, rfl⟩ := this
  rfl

@[simp] theorem Causes.has_empty (x : Cause) : Causes.has .empty x = false := by cases x <;> rfl

/-- A set that holds all another holds is empty only when that is. -/
theorem Causes.ne_empty_of_has {a b : Causes} (h : ∀ x, a.has x = true → b.has x = true) (ha : a ≠ .empty) :
    b ≠ .empty := by
  intro hb
  refine ha (Causes.eq_empty fun x => ?_)
  cases hx : a.has x
  · rfl
  · have := h x hx; rw [hb, Causes.has_empty] at this; cases this

/-- What raising `cs` on the lane `l` at place `n` leaves: the lane `l'` and the Attention List. -/
structure Raised (s t : State) (mask : Causes) (n : Nat) (cs : List Cause) (l l' : Lane) : Prop where
  lane : t.lane n = some l'
  causes : ∀ x, l'.causes.has x = (l.causes.has x || (passes mask x && decide (x ∈ cs)))
  attention : t.attention = if l.causes = .empty ∧ l'.causes ≠ .empty then s.attention.join n else s.attention
  joined : l'.joined =
    if l.causes = .empty ∧ l'.causes ≠ .empty then some ⟨s.clock.day, s.clock.minute⟩ else l.joined
  rest : l' = { l with causes := l'.causes, joined := l'.joined }

/-- One raise (R161). -/
theorem raise_raised (s : State) (mask : Causes) (n : Nat) (c : Cause) (l : Lane) (hl : s.lane n = some l) :
    ∃ l', Raised s (s.raise mask n c) mask n [c] l l' := by
  unfold State.raise
  by_cases hp : passes mask c = true
  · have hadd : ∀ x, (l.causes.add c).has x = (l.causes.has x || (passes mask x && decide (x ∈ [c]))) := by
      intro x
      by_cases hx : x = c
      · subst hx; simp [hp]
      · simp [Causes.has_add_ne _ hx, hx]
    simp only [show (mask.has c || decide (c = .action)) = true from hp, if_true, hl]
    by_cases he : l.causes = .empty
    · rw [if_pos he]
      refine ⟨_, putLane_lane_self _ _ _, hadd, ?_, ?_, rfl⟩
      · rw [if_pos ⟨he, Causes.add_ne_empty _ _⟩]; rfl
      · rw [if_pos ⟨he, Causes.add_ne_empty _ _⟩]
    · rw [if_neg he]
      refine ⟨_, putLane_lane_self _ _ _, hadd, ?_, ?_, rfl⟩
      · rw [if_neg fun h => he h.1]; rfl
      · rw [if_neg fun h => he h.1]
  · have hp' : (mask.has c || decide (c = .action)) = false := by simpa [passes] using hp
    simp only [hp']
    refine ⟨l, by simpa using hl, fun x => ?_, by simp, by simp, rfl⟩
    by_cases hx : x = c
    · subst hx; simp [Bool.eq_false_iff.mpr hp]
    · simp [hx]

/-- The causes of one event: at most one join, by the first that passes the mask (R161, R162). -/
theorem raiseAll_raised (s : State) (mask : Causes) (n : Nat) (cs : List Cause) (l : Lane) (hl : s.lane n = some l) :
    ∃ l', Raised s (s.raiseAll mask n cs) mask n cs l l' := by
  induction cs generalizing s l with
  | nil => exact ⟨l, hl, by simp, by simp, by simp, rfl⟩
  | cons c cs ih =>
    rw [State.raiseAll_cons]
    obtain ⟨l₁, h₁⟩ := raise_raised s mask n c l hl
    obtain ⟨l₂, h₂⟩ := ih _ _ h₁.lane
    have keep₁ := Causes.ne_empty_of_has (a := l.causes) (b := l₁.causes) fun x hx => by rw [h₁.causes, hx]; rfl
    have keep₂ := Causes.ne_empty_of_has (a := l₁.causes) (b := l₂.causes) fun x hx => by rw [h₂.causes, hx]; rfl
    refine ⟨l₂, h₂.lane, fun x => ?_, ?_, ?_, ?_⟩
    · rw [h₂.causes x, h₁.causes x]
      simp only [List.mem_cons]
      cases l.causes.has x <;> cases passes mask x <;> by_cases hx : x = c <;> by_cases hs : x ∈ cs <;> simp [hx, hs]
    · rw [h₂.attention, h₁.attention]
      by_cases e₀ : l.causes = .empty <;> by_cases e₁ : l₁.causes = .empty <;> by_cases e₂ : l₂.causes = .empty <;>
        simp_all
    · rw [h₂.joined, h₁.joined, State.raise_clock]
      by_cases e₀ : l.causes = .empty <;> by_cases e₁ : l₁.causes = .empty <;> by_cases e₂ : l₂.causes = .empty <;>
        simp_all
    · rw [h₂.rest, h₁.rest]

end Sys2Proof.Machine
end

