-- ==== Sys2Proof/Laws/Directory.lean ====
section
/-! SUPPORT. What naming and emptying a slot of the Site Directory can do (R8 to R10). -/
namespace Sys2Proof.Machine

/-- The ascending order of the directory (R7). -/
abbrev Ascending (d : List Site) : Prop := d.Pairwise fun a b => a.store < b.store

@[simp] theorem siteSlots_nil (b : Nat) : siteSlots b [] = none := rfl

theorem siteSlots_cons (b : Nat) (e : Site) (d : List Site) :
    siteSlots b (e :: d) = if e.store = b then some e.slots else if b < e.store then none else siteSlots b d := by
  unfold siteSlots
  rw [searchSites]
  by_cases hb : e.store = b
  · simp [hb]
  · by_cases hlt : b < e.store
    · simp [hb, hlt]
    · simp only [if_neg hb, if_neg hlt]
      cases searchSites b d <;> rfl

/-- A store below every entry has no slots. -/
theorem siteSlots_of_lt {b : Nat} {d : List Site} (h : ∀ e ∈ d, b < e.store) : siteSlots b d = none := by
  cases d with
  | nil => rfl
  | cons e d =>
    have := h e (List.mem_cons_self ..)
    rw [siteSlots_cons, if_neg (by omega), if_pos this]

theorem nameSlot_cons (b : Nat) (i : SlotNumber) (n : Nat) (e : Site) (d : List Site) :
    nameSlot b i n (e :: d) =
      if e.store = b then ({ e with slots := e.slots.put i (some n) } :: d, false)
      else if b < e.store then (⟨b, Slots.vacant.put i (some n)⟩ :: e :: d, true)
      else (e :: (nameSlot b i n d).1, (nameSlot b i n d).2) := by
  unfold nameSlot
  rw [searchSites]
  by_cases hb : e.store = b
  · simp [hb]
  · by_cases hlt : b < e.store
    · simp [hb, hlt]
    · simp only [if_neg hb, if_neg hlt]
      cases searchSites b d <;> rfl

theorem emptySlot_cons (b : Nat) (i : SlotNumber) (e : Site) (d : List Site) :
    emptySlot b i (e :: d) =
      if e.store = b then
        if e.slots.put i none = Slots.vacant then (d, true) else ({ e with slots := e.slots.put i none } :: d, false)
      else if b < e.store then (e :: d, false)
      else (e :: (emptySlot b i d).1, (emptySlot b i d).2) := by
  unfold emptySlot
  rw [searchSites]
  by_cases hb : e.store = b
  · simp [hb]
  · by_cases hlt : b < e.store
    · simp [hb, hlt]
    · simp only [if_neg hb, if_neg hlt]
      cases searchSites b d with
      | notFound k => rfl
      | found k =>
        cases hk : d[k]? with
        | none => simp [Search.later, hk]
        | some x =>
          by_cases hv : x.slots.put i none = Slots.vacant
          · simp [Search.later, hk, hv]
          · simp [Search.later, hk, hv]

/-- Each entry after a slot was named is the store's entry or an entry of before. -/
theorem mem_nameSlot {b : Nat} {i : SlotNumber} {n : Nat} {d : List Site} {x : Site}
    (h : x ∈ (nameSlot b i n d).1) : x.store = b ∨ x ∈ d := by
  induction d with
  | nil => simp [nameSlot, searchSites] at h; exact .inl (by rw [h])
  | cons e d ih =>
    rw [nameSlot_cons] at h
    split at h
    · rename_i he
      rcases List.mem_cons.mp h with rfl | h
      · exact .inl he
      · exact .inr (List.mem_cons_of_mem _ h)
    · split at h
      · rcases List.mem_cons.mp h with rfl | h
        · exact .inl rfl
        · exact .inr h
      · rcases List.mem_cons.mp h with rfl | h
        · exact .inr (List.mem_cons_self ..)
        · rcases ih h with h | h
          · exact .inl h
          · exact .inr (List.mem_cons_of_mem _ h)

/-- Naming a lane in a slot (R9): the order stays, the store's slots are as before but for the named one (empty
before, for a store that had no entry), and every other store's slots stay. -/
theorem nameSlot_spec (b : Nat) (i : SlotNumber) (n : Nat) (d : List Site) (hd : Ascending d) :
    Ascending (nameSlot b i n d).1 ∧
    siteSlots b (nameSlot b i n d).1 = some (((siteSlots b d).getD Slots.vacant).put i (some n)) ∧
    (∀ c, c ≠ b → siteSlots c (nameSlot b i n d).1 = siteSlots c d) ∧
    (nameSlot b i n d).2 = (siteSlots b d).isNone ∧
    (nameSlot b i n d).1.length = d.length + (if (siteSlots b d).isNone then 1 else 0) := by
  induction d with
  | nil =>
    refine ⟨by simp [nameSlot, searchSites], by simp [nameSlot, searchSites, siteSlots_cons], fun c hc => ?_, rfl, rfl⟩
    simp [nameSlot, searchSites, siteSlots_cons, Ne.symm hc]
  | cons e d ih =>
    obtain ⟨he, hd⟩ := List.pairwise_cons.mp hd
    obtain ⟨h1, h2, h3, h4, h5⟩ := ih hd
    rw [nameSlot_cons, siteSlots_cons]
    by_cases hb : e.store = b
    · simp only [hb, if_true]
      subst hb
      refine ⟨List.pairwise_cons.mpr ⟨he, hd⟩, by rw [siteSlots_cons, if_pos rfl]; rfl, fun c hc => ?_, rfl, by simp⟩
      simp only [siteSlots_cons, if_neg (Ne.symm hc)]
    · by_cases hlt : b < e.store
      · simp only [if_neg hb, if_pos hlt]
        refine ⟨List.pairwise_cons.mpr ⟨fun x hx => ?_, List.pairwise_cons.mpr ⟨he, hd⟩⟩,
          by rw [siteSlots_cons, if_pos rfl]; rfl, fun c hc => ?_, rfl, rfl⟩
        · rcases List.mem_cons.mp hx with rfl | hx
          · exact hlt
          · exact Nat.lt_trans hlt (he x hx)
        · rw [siteSlots_cons c ⟨b, _⟩]
          dsimp only
          rw [if_neg (Ne.symm hc)]
          split
          · rename_i hcb
            rw [siteSlots_cons, if_neg (by omega), if_pos (by omega)]
          · rfl
      · simp only [if_neg hb, if_neg hlt]
        refine ⟨List.pairwise_cons.mpr ⟨fun x hx => ?_, h1⟩, ?_, fun c hc => ?_, h4, by simp [h5]; omega⟩
        · rcases mem_nameSlot hx with hx | hx
          · omega
          · exact he x hx
        · rw [siteSlots_cons, if_neg hb, if_neg hlt, h2]
        · rw [siteSlots_cons, siteSlots_cons, h3 c hc]

/-- Each entry after a slot was emptied is the store's entry or an entry of before. -/
theorem mem_emptySlot {b : Nat} {i : SlotNumber} {d : List Site} {x : Site}
    (h : x ∈ (emptySlot b i d).1) : (∃ e ∈ d, x.store = e.store) := by
  induction d with
  | nil => simp [emptySlot, searchSites] at h
  | cons e d ih =>
    rw [emptySlot_cons] at h
    split at h
    · split at h
      · exact ⟨x, List.mem_cons_of_mem _ h, rfl⟩
      · rcases List.mem_cons.mp h with rfl | h
        · exact ⟨e, List.mem_cons_self .., rfl⟩
        · exact ⟨x, List.mem_cons_of_mem _ h, rfl⟩
    · split at h
      · exact ⟨x, h, rfl⟩
      · rcases List.mem_cons.mp h with rfl | h
        · exact ⟨x, List.mem_cons_self .., rfl⟩
        · obtain ⟨y, hy, he⟩ := ih h
          exact ⟨y, List.mem_cons_of_mem _ hy, he⟩

/-- Emptying a slot of a store that has an entry (R10): the order stays, the entry leaves exactly when no occupied
slot is left, and every other store's slots stay. -/
theorem emptySlot_spec (b : Nat) (i : SlotNumber) (d : List Site) (x : Slots (Option Nat)) (hd : Ascending d)
    (hx : siteSlots b d = some x) :
    Ascending (emptySlot b i d).1 ∧
    siteSlots b (emptySlot b i d).1 = (if x.put i none = Slots.vacant then none else some (x.put i none)) ∧
    (∀ c, c ≠ b → siteSlots c (emptySlot b i d).1 = siteSlots c d) ∧
    (emptySlot b i d).2 = decide (x.put i none = Slots.vacant) ∧
    (emptySlot b i d).1.length + (if x.put i none = Slots.vacant then 1 else 0) = d.length := by
  induction d with
  | nil => cases hx
  | cons e d ih =>
    obtain ⟨he, hd⟩ := List.pairwise_cons.mp hd
    rw [siteSlots_cons] at hx
    rw [emptySlot_cons]
    by_cases hb : e.store = b
    · simp only [hb, if_true] at hx ⊢
      cases hx
      by_cases hv : e.slots.put i none = Slots.vacant
      · simp only [hv, if_true]
        refine ⟨hd, siteSlots_of_lt (fun y hy => by have := he y hy; omega), fun c hc => ?_, by simp, by simp⟩
        rw [siteSlots_cons, if_neg (by omega)]
        split
        · exact siteSlots_of_lt (fun y hy => by have := he y hy; omega)
        · rfl
      · simp only [hv, if_false]
        refine ⟨List.pairwise_cons.mpr ⟨fun y hy => ?_, hd⟩, by simp [siteSlots_cons], fun c hc => ?_, by simp,
          by simp⟩
        · have := he y hy; simpa [hb] using this
        · simp only [siteSlots_cons, hb, if_neg (Ne.symm hc)]
    · rw [if_neg hb] at hx ⊢
      by_cases hlt : b < e.store
      · rw [if_pos hlt] at hx; cases hx
      · rw [if_neg hlt] at hx
        obtain ⟨h1, h2, h3, h4, h5⟩ := ih hd hx
        simp only [if_neg hlt]
        refine ⟨List.pairwise_cons.mpr ⟨fun y hy => ?_, h1⟩, ?_, fun c hc => ?_, h4, by simp; omega⟩
        · obtain ⟨z, hz, hzy⟩ := mem_emptySlot hy
          rw [hzy]; exact he z hz
        · rw [siteSlots_cons, if_neg hb, if_neg hlt, h2]
        · rw [siteSlots_cons, siteSlots_cons, h3 c hc]

end Sys2Proof.Machine
end

