-- ==== Sys2Proof/Laws/Judge.lean ====
section
/-! SUPPORT. The evaluation in the terms of the statements: what the acceptance checks, lot resolution and the
seventh check come to, and the event once its lane, policy and judgement are known. -/
namespace Sys2Proof.Machine

/-- Checks 2 to 5 pass exactly when the report passes the day checks (R69 to R72). -/
theorem dayRefusal_eq_none_iff (s : State) (l : Lane) (day : Nat) :
    dayRefusal s.clock.day l day = none ↔ PassesDayChecks s l day := by
  unfold dayRefusal
  constructor
  · intro h
    split at h
    · cases h
    · split at h
      · cases h
      · split at h
        · cases h
        · split at h
          · cases h
          · constructor <;> first | assumption | omega
  · rintro ⟨h1, h2, h3, h4⟩
    rw [if_neg h1, if_neg (by omega), if_neg (by omega), if_neg h4]

/-- Lot resolution accepts by a case exactly when the case decides (R54). -/
theorem ResolvesTo.resolveLot {s : State} {l : Lane} {lot : Nat} {c : LotCase} (h : ResolvesTo s l lot c) :
    resolveLot s.lots.entries l lot = c ∧ c.refusal = none := by
  cases h with
  | active h => simp [Machine.resolveLot, h, LotCase.refusal]
  | pending h1 h2 => simp [Machine.resolveLot, h1, h2, LotCase.refusal]
  | auto e h1 h2 h3 h4 h5 h6 => simp [Machine.resolveLot, h1, h2, h3, h4, h5, h6, LotCase.refusal]

theorem resolvesTo_of_resolveLot {s : State} {l : Lane} {lot : Nat}
    (h : (Machine.resolveLot s.lots.entries l lot).refusal = none) :
    ResolvesTo s l lot (Machine.resolveLot s.lots.entries l lot) := by
  unfold Machine.resolveLot at h ⊢
  split
  · exact .active (by assumption)
  · rename_i h1
    rw [if_neg h1] at h
    split
    · exact .pending h1 (by assumption)
    · rename_i h2
      rw [if_neg h2] at h
      cases he : Table.find lot s.lots.entries with
      | none => rw [he] at h; cases h
      | some e =>
        rw [he] at h
        dsimp only at h ⊢
        split
        · rename_i hc; exact .auto e h1 h2 he hc.1 hc.2.1 hc.2.2
        · rename_i hc; rw [if_neg hc] at h; cases h

/-- Resolution that accepts no case refuses LOT UNKNOWN when the lot is not in the table, LOT MISMATCH when it is
(R58, R59). -/
theorem resolveLot_refuses {s : State} {l : Lane} {lot : Nat} (h : ∀ c, ¬ResolvesTo s l lot c) :
    Machine.resolveLot s.lots.entries l lot =
      if (Table.find lot s.lots.entries).isSome then .mismatch else .unknown := by
  have hr : (Machine.resolveLot s.lots.entries l lot).refusal ≠ none := fun hn => h _ (resolvesTo_of_resolveLot hn)
  unfold Machine.resolveLot at hr ⊢
  split at hr
  · exact absurd rfl hr
  · rename_i h1
    rw [if_neg h1]
    split at hr
    · exact absurd rfl hr
    · rename_i h2
      rw [if_neg h2]
      split at hr
      · rename_i he; simp [he]
      · rename_i e he
        rw [he]
        split at hr
        · exact absurd rfl hr
        · rename_i hc; simp [hc]

/-- A point is evaluable with its plot value exactly when it is evaluated at it (R74). -/
theorem evaluable_eq_some_iff (pol : Policy) (rep : Report) (p : Point) (v : Int) :
    evaluable pol rep p = some v ↔ EvaluatedAt pol rep p v := by
  unfold evaluable EvaluatedAt
  cases pol.used.pick p <;> simp

theorem evaluable_eq_none_iff (pol : Policy) (rep : Report) (p : Point) :
    evaluable pol rep p = none ↔ ∀ v, ¬EvaluatedAt pol rep p v := by
  simp only [← evaluable_eq_some_iff]
  exact Option.eq_none_iff_forall_ne_some

/-- The seventh check refuses exactly when no point is evaluated (R74). -/
theorem noData_iff (pol : Policy) (rep : Report) : noData pol rep = true ↔ ∀ p v, ¬EvaluatedAt pol rep p v := by
  simp only [noData, List.all_eq_true, Option.isNone_iff_eq_none]
  exact ⟨fun h p => (evaluable_eq_none_iff pol rep p).mp (h p (mem_order p)),
    fun h p _ => (evaluable_eq_none_iff pol rep p).mpr (h p)⟩

/-- The result of a point in a reading (R87, R101). -/
theorem results_pick (pol : Policy) (l : Lane) (refs : Patches Nat) (rep : Report) (p : Point) :
    (results pol l refs rep).pick p = (evaluable pol rep p).map (judgePoint pol l refs rep.clipped p) :=
  pick_ofFn _ p

/-- The entries of a verdict are those of the evaluated points, in plot-point order (R81). -/
theorem mem_entriesOf (rs : Points (Option PointResult)) (p : Point) (r : PointResult) :
    (p, r) ∈ entriesOf rs ↔ rs.pick p = some r := by
  simp only [entriesOf, List.mem_filterMap, Option.map_eq_some_iff]
  constructor
  · rintro ⟨p', -, r', h, e⟩
    cases e; exact h
  · intro h; exact ⟨p, mem_order p, r, h, rfl⟩

theorem entriesOf_points (rs : Points (Option PointResult)) :
    (entriesOf rs).map Prod.fst = Point.order.filter fun p => (rs.pick p).isSome := by
  unfold entriesOf
  induction Point.order with
  | nil => rfl
  | cons p ps ih =>
    cases h : rs.pick p <;> simp_all

/-- The evaluation event, once the report's lane and policy are known (R67). -/
theorem exec_evaluation_of_judges {s : State} {q : QueuedReport} {rest : List QueuedReport} {n : Nat} {l : Lane}
    {pol : Policy} (h : Judges s q rest n l pol) :
    exec .evaluation s = match judge s.lots.entries pol s.clock.day l q.report with
      | .error f => .fault f
      | .ok j => .next ((commitJudgement { s with queues := { s.queues with intake := rest } } n l pol.noticeMask
          q.report.lot j).pushVerdict (verdictOf (some q.ticket) q.report (some n) j.body)) := by
  obtain ⟨⟨h1, h2⟩, h3, h4, h5, h6⟩ := h
  have h5' : State.laneAt { s with queues := { s.queues with intake := rest } } q.report.store q.report.slot =
      some (n, l) := h5
  simp only [exec, execEvaluation, State.awake, h1, h2, Config.verdictCapacity, h3, h4, evaluateReport, h5', h6,
    Bool.not_false, Bool.and_self, decide_true, if_true]
  cases judge s.lots.entries pol s.clock.day l q.report <;> rfl

/-- A report that passes all seven checks is judged against its lot's references (R67). -/
theorem judge_of_accepts {s : State} {q : QueuedReport} {rest : List QueuedReport} {n : Nat} {l : Lane} {pol : Policy}
    {c : LotCase} {e : Lot} (h : Accepts s q rest n l pol c e) :
    judge s.lots.entries pol s.clock.day l q.report =
      .ok (judgeAccepted pol e.references c (crossLane c q.report.lot l) q.report) := by
  obtain ⟨hj, hp, hc, he, hdata⟩ := h
  have hd := (dayRefusal_eq_none_iff s l _).mpr hp
  have hn : noData pol q.report = false := by
    by_contra hh
    obtain ⟨p, v, hv⟩ := hdata
    exact (noData_iff _ _).mp (by simpa using hh) p v hv
  have ha : (crossLane c q.report.lot l).activeLot = q.report.lot := by
    cases hc <;> simp_all [crossLane, LotCase.crossover]
  simp only [judge, hd, hc.resolveLot.1, hc.resolveLot.2, hn, ha, he]
  rfl

/-- The lot case of a judgement: none when a day check refuses, and otherwise the case that decides (R62, R84). -/
theorem judge_lotCase {s : State} {pol : Policy} {l : Lane} {rep : Report} {j : Judgement}
    (h : judge s.lots.entries pol s.clock.day l rep = .ok j) :
    ¬PassesDayChecks s l rep.day ∧ j.lotCase = none ∨
      PassesDayChecks s l rep.day ∧ j.lotCase = some (Machine.resolveLot s.lots.entries l rep.lot) := by
  unfold judge at h
  cases hd : dayRefusal s.clock.day l rep.day with
  | some reason =>
    rw [hd] at h
    cases h
    exact .inl ⟨fun hp => by simp [(dayRefusal_eq_none_iff s l _).mpr hp] at hd, rfl⟩
  | none =>
    rw [hd] at h
    refine .inr ⟨(dayRefusal_eq_none_iff s l _).mp hd, ?_⟩
    dsimp only at h
    split at h
    · cases h; rfl
    · split at h
      · cases h; rfl
      · split at h <;> cases h
        rfl

/-! ### The lane after a crossover (R56, R57) -/

@[simp] theorem crossLane_offsets (c : LotCase) (lot : Nat) (l : Lane) : (crossLane c lot l).offsets = l.offsets := by
  unfold crossLane; split <;> rfl
@[simp] theorem crossLane_trend (c : LotCase) (lot : Nat) (l : Lane) : (crossLane c lot l).trend = l.trend := by
  unfold crossLane; split <;> rfl
@[simp] theorem crossLane_causes (c : LotCase) (lot : Nat) (l : Lane) : (crossLane c lot l).causes = l.causes := by
  unfold crossLane; split <;> rfl
@[simp] theorem crossLane_joined (c : LotCase) (lot : Nat) (l : Lane) : (crossLane c lot l).joined = l.joined := by
  unfold crossLane; split <;> rfl
@[simp] theorem crossLane_type (c : LotCase) (lot : Nat) (l : Lane) : (crossLane c lot l).type = l.type := by
  unfold crossLane; split <;> rfl
@[simp] theorem moveLane_crossLane (pol : Policy) (c : LotCase) (lot : Nat) (l : Lane) (o : ReadingOutcome) :
    moveLane pol (crossLane c lot l) o = moveLane pol l o := by
  unfold crossLane; split <;> rfl

/-- The run counts a reading meets (R56, R57). -/
@[simp] theorem crossLane_runCount (c : LotCase) (lot : Nat) (l : Lane) (p : Point) :
    (crossLane c lot l).runCount.pick p = runCountMet c l p := by
  cases c <;> simp [crossLane, LotCase.crossover, runCountMet]

end Sys2Proof.Machine
end

