-- ==== Sys2Proof/Laws/Requests.lean ====
section
/-! SUPPORT. Every request command is the taking of its request by one block, on the state with SUPERVISOR ENABLE
at the level the command finds it. -/
namespace Sys2Proof.Machine

@[simp] theorem State.driven_ready (s : State) (c : Instr) : (s.driven c).lines.ready = s.lines.ready := by
  unfold State.driven; split <;> rfl
@[simp] theorem State.driven_resetAsserted (s : State) (c : Instr) :
    (s.driven c).lines.resetAsserted = s.lines.resetAsserted := by
  unfold State.driven; split <;> rfl
@[simp] theorem State.driven_framer (s : State) (c : Instr) (p : Port) : (s.driven c).framer p = s.framer p := by
  unfold State.driven; split <;> simp
@[simp] theorem State.driven_pending (s : State) (c : Instr) : (s.driven c).pending = s.pending := by
  unfold State.driven; split <;> rfl
@[simp] theorem State.driven_lane (s : State) (c : Instr) (n : Nat) : (s.driven c).lane n = s.lane n := by
  unfold State.driven; split <;> rfl
@[simp] theorem State.driven_named (s : State) (c : Instr) (x : LaneName) : (s.driven c).named x = s.named x := by
  unfold State.driven; split <;> simp

theorem Takes.driven {p : Port} {r : Request} {s : State} (h : Takes p r s) (c : Instr) : Takes p r (s.driven c) := by
  unfold Takes at h ⊢
  simpa using h

/-- A request command is served by one block (Table 10-1). -/
theorem exec_request {c : Instr} {p : Port} {r : Request} (h : c.request = some (p, r)) :
    ∃ block : State → Taken, ∀ s, exec c s = serve p r block (s.driven c) := by
  cases c <;> simp only [Instr.request, Option.some.injEq, Prod.mk.injEq, reduceCtorEq] at h <;>
    obtain ⟨rfl, rfl⟩ := h <;> exact ⟨_, fun s => by (try simp only [exec]); rfl⟩

end Sys2Proof.Machine
end

