-- ==== Sys2Proof/Tests/Slice0.lean ====
section
/-! SUPPORT. Tests: ill-formed terms refused, frames written out from Table 11-1, worked examples of the manual one
step at a time, and a named witness for the hypotheses of each statement. Every expected value is the manual's. -/
namespace Sys2Proof.Tests

open Sys2Proof Sys2Proof.Machine

/-! ### A small state: lane 57 of section 5.8 before day 2301 -/

/-- No rest days. -/
def noRest : Weekdays := ⟨false, false, false, false, false, false, false⟩

/-- The same four values in each channel. -/
def inEach {α : Type} (a : α) : Channels α := ⟨a, a, a⟩

/-- The policy of Table 2-3, its red points in every channel. -/
def paper : Policy where
  used := Points.all true
  limits := inEach ⟨⟨-1000, -1000, 20, 40⟩, ⟨-100, -60, 60, 100⟩, ⟨-100, -60, 60, 100⟩, ⟨-150, -80, 80, 150⟩⟩
  driftThreshold := inEach ⟨20, 40, 40, 60⟩
  filterShift := 2
  deadband := 10
  runLength := 6
  settleCount := 5
  clearCount := 3
  overdueLimit := 2
  noticeMask := ⟨true, true, true, true, true, true, true⟩

/-- The references of section 5.8, its red values in every channel. -/
def references : Patches Nat := inEach ⟨120, 830, 1420, 2150⟩

/-- Lane 57 before day 2301 (Table 5-6). -/
def lane57 : Lane where
  store := 431
  slot := 1
  type := 1
  state := .steady
  settleProgress := 0
  cleanProgress := 0
  activeLot := 61840
  pendingLot := none
  offsets := ⟨⟨0, 15, -10, 0⟩, ⟨0, 0, 0, 0⟩, ⟨0, 0, 0, 0⟩⟩
  trend := { Points.all ⟨0, false⟩ with r := ⟨⟨64, true⟩, ⟨320, true⟩, ⟨-90, true⟩, ⟨-200, true⟩⟩ }
  runCount := { Points.all 0 with r := ⟨0, 3, -1, -2⟩ }
  lastDeviation := Points.all none
  createdDay := 2000
  lastDay := some 2300
  rerunsToday := 0
  restMask := noRest
  locked := false
  autoCross := true
  autoClear := true
  overdue := false
  causes := .empty
  joined := none
  counters := ⟨12, 2, 0, 0, 0, 0, 0, 0⟩
  summary := ⟨0, 0, 0, 0, 0, 0, 0, 0⟩
  periodTag := 0

/-- A report of lane 57 with red densities alone. -/
def reportOf (lot day : Nat) (red : Strip (Option Nat)) : Report :=
  ⟨431, 1, lot, day, ⟨red, ⟨none, none, none, none⟩, ⟨none, none, none, none⟩⟩, inEach ⟨false, false, false, false⟩⟩

/-- The red densities of day 2301 (section 5.8). -/
def red2301 : Strip (Option Nat) := ⟨some 126, some 878, some 1452, some 2143⟩

/-- The part of section 5.8, with the given waiting commands, Strip Port framer, lane 57 and report in the intake. -/
def desk (cs : List Instr) (f : Framer) (l : Lane) (rep : Report) : State where
  pending := cs
  lines := ⟨true, false, .inactive⟩
  ports := ⟨⟨f, []⟩, .idle⟩
  queues := ⟨[⟨0, rep⟩], [], 1⟩
  store := ⟨[(57, l)], 1, [⟨431, ⟨none, some 57, none, none⟩⟩], 1⟩
  policies := ⟨.undefined, ⟨some paper, 1⟩, .undefined, .undefined, .undefined, .undefined, .undefined, .undefined⟩
  lots := ⟨[(41022, ⟨1, .announced, references, 0, 2205⟩), (61840, ⟨1, .current, references, 1, 2100⟩)], 2⟩
  clock := ⟨2301, 400, 1, true, 720⟩
  sweeps := ⟨.idle, false, 0, false, none⟩
  attention := ⟨[], 0, .level, 0, false⟩
  status := ⟨.powerOn, false⟩

/-- The part on the morning of day 2301, the strip waiting. -/
def morning : State := desk [] .idle lane57 (reportOf 61840 2301 red2301)

/-- The next state of an outcome, when there is one. -/
def nextOf (o : Host.Outcome State Fault Refusal) : Option State :=
  match o with
  | .next t => some t
  | .fault _ | .refused _ => none

/-- The reply the Supervision Port holds after a command. -/
def replyOf (c : Instr) (s : State) : Option Reply :=
  (nextOf (exec c s)).bind fun t => match t.framer .supervision with
    | .replyHeld r => some r
    | .idle | .taking | .answering _ => none

/-- The lane at a place after a command. -/
def laneAfter (c : Instr) (s : State) (n : Nat) : Option Lane := (nextOf (exec c s)).bind fun t => t.lane n

/-- The body of the last verdict after an evaluation. -/
def verdictAfter (s : State) : Option VerdictBody :=
  (nextOf (exec .evaluation s)).bind fun t => t.queues.verdicts.getLast?.map Verdict.body

/-! ### Ill-formed commands are refused -/

/-- A strip report with every field at the top of its frame field. -/
def topReport : StripReport := ⟨65535, 3, 16777215, 65535, inEach ⟨some 4095, none, some 0, some 4000⟩⟩

theorem test_wellformed_top_report : (Instr.submit topReport).WellFormed = true := by decide
theorem test_illformed_report_store : (Instr.submit { topReport with store := 65536 }).WellFormed = false := by decide
theorem test_illformed_report_slot : (Instr.submit { topReport with slot := 256 }).WellFormed = false := by decide
theorem test_illformed_report_lot : (Instr.prove { topReport with lot := 16777216 }).WellFormed = false := by decide
theorem test_illformed_report_day : (Instr.prove { topReport with day := 65536 }).WellFormed = false := by decide
theorem test_illformed_report_density :
    (Instr.submit { topReport with densities := inEach ⟨some 4096, none, none, none⟩ }).WellFormed = false := by decide
theorem test_illformed_names :
    (Instr.lookupLane (.bySlot 65536 0)).WellFormed = false ∧ (Instr.holdLane (.bySlot 1 256)).WellFormed = false ∧
    (Instr.releaseLane (.byNumber 65536)).WellFormed = false ∧
    (Instr.requalifyLane (.byNumber 65536)).WellFormed = false ∧
    (Instr.lockLane (.byNumber 65536) .active).WellFormed = false ∧
    (Instr.unlockLane (.byNumber 65536) .active).WellFormed = false ∧
    (Instr.retireLane (.byNumber 65536) .active).WellFormed = false ∧
    (Instr.editLane (.byNumber 65536) ⟨none, none, none, none⟩ .active).WellFormed = false := by decide
theorem test_illformed_creation :
    (Instr.createLane ⟨65536, 0, 0, noRest, none, none, none⟩).WellFormed = false ∧
    (Instr.createLane ⟨1, 256, 0, noRest, none, none, none⟩).WellFormed = false ∧
    (Instr.createLane ⟨1, 0, 256, noRest, none, none, none⟩).WellFormed = false ∧
    (Instr.createLane ⟨1, 0, 0, noRest, some (Points.all 32768), none, none⟩).WellFormed = false := by decide
theorem test_illformed_edit_offset :
    (Instr.editLane (.byNumber 0) ⟨some (Points.all (-32769)), none, none, none⟩ .active).WellFormed = false := by
  decide
theorem test_illformed_policy_points :
    (Instr.setPolicy 256 paper .active).WellFormed = false ∧
    (Instr.setPolicy 1 { paper with limits := Points.all ⟨-32769, 0, 0, 0⟩ } .active).WellFormed = false ∧
    (Instr.setPolicy 1 { paper with limits := Points.all ⟨0, -32769, 0, 0⟩ } .active).WellFormed = false ∧
    (Instr.setPolicy 1 { paper with limits := Points.all ⟨0, 0, 32768, 0⟩ } .active).WellFormed = false ∧
    (Instr.setPolicy 1 { paper with limits := Points.all ⟨0, 0, 0, 32768⟩ } .active).WellFormed = false ∧
    (Instr.setPolicy 1 { paper with driftThreshold := Points.all 65536 } .active).WellFormed = false := by decide
theorem test_illformed_policy_bytes :
    (Instr.setPolicy 1 { paper with filterShift := 256 } .active).WellFormed = false ∧
    (Instr.setPolicy 1 { paper with deadband := 256 } .active).WellFormed = false ∧
    (Instr.setPolicy 1 { paper with runLength := 256 } .active).WellFormed = false ∧
    (Instr.setPolicy 1 { paper with settleCount := 256 } .active).WellFormed = false ∧
    (Instr.setPolicy 1 { paper with clearCount := 256 } .active).WellFormed = false ∧
    (Instr.setPolicy 1 { paper with overdueLimit := 256 } .active).WellFormed = false ∧
    (Instr.setPolicyUndefine 256 .active).WellFormed = false ∧ (Instr.readPolicy 256).WellFormed = false := by decide
theorem test_illformed_lots :
    (Instr.announceLot 16777216 0 references).WellFormed = false ∧
    (Instr.announceLot 1 256 references).WellFormed = false ∧
    (Instr.announceLot 1 0 (inEach ⟨65536, 0, 0, 0⟩)).WellFormed = false ∧
    (Instr.readLot 16777216).WellFormed = false ∧ (Instr.readLotFollowing 16777216).WellFormed = false ∧
    (Instr.deleteLot 16777216).WellFormed = false ∧ (Instr.startRollout 16777216).WellFormed = false := by decide
theorem test_illformed_small_requests :
    (Instr.retireSite 65536 .active).WellFormed = false ∧ (Instr.nextLane (some 65536)).WellFormed = false ∧
    (Instr.setClock 65536 0 0).WellFormed = false ∧ (Instr.setClock 0 65536 0).WellFormed = false ∧
    (Instr.setClock 0 0 256).WellFormed = false ∧ (Instr.setDeadline 65536).WellFormed = false ∧
    (Instr.setAttentionMode 256).WellFormed = false := by decide
/-- A frame of no bytes is no frame, and a READ frame is no request frame (R172). -/
theorem test_illformed_frames :
    (Instr.requestFrameEnd .strip []).WellFormed = false ∧
    (Instr.requestFrameEnd .strip [0x01]).WellFormed = false ∧
    (Instr.requestFrameEnd .strip [0x11, 0x00]).WellFormed = true := by decide

/-! ### Frames written out byte by byte from Tables 11-1 to 11-3 -/

/-- A SUBMIT frame: store 431 (01AFh), slot 1, lot 61840 (00F190h), day 2301 (08FDh), then twelve densities, the
green and blue ones absent (bit 15). -/
def submitFrame : List Byte :=
  [0x10, 0x00, 0x01, 0xAF, 0x01, 0x00, 0xF1, 0x90, 0x08, 0xFD, 0x00, 0x7E, 0x03, 0x6E, 0x05, 0xAC, 0x08, 0x5F] ++
    (List.replicate 8 [0x80, 0x00]).flatten

theorem test_parse_submit : parseFrame .strip submitFrame =
    some (.submit ⟨431, 1, 61840, 2301, ⟨red2301, ⟨none, none, none, none⟩, ⟨none, none, none, none⟩⟩⟩) := by decide
/-- A density's bits 12 to 14 are not examined, nor any other bit of an absent one (R187). -/
theorem test_parse_density_bits :
    parseFrame .strip (((submitFrame.set 10 0x70).set 18 0xFF).set 19 0xFF) = parseFrame .strip submitFrame := by
  decide
theorem test_parse_wrong_port : parseFrame .supervision submitFrame = none := by decide
theorem test_parse_wrong_length : parseFrame .strip (submitFrame ++ [0x00]) = none := by decide
theorem test_parse_slot_above_3 : parseFrame .strip (submitFrame.set 4 0x04) = none := by decide
theorem test_parse_collect : parseFrame .strip [0x11, 0x00] = some .collect := by decide
/-- EDIT LANE of lane 57 by number, with a rest mask of Sunday and AUTO-CLEAR permitted; the third name byte is not
examined. -/
theorem test_parse_edit_lane : parseFrame .supervision [0x21, 0x15, 0x00, 0x39, 0xAA, 0xC0, 0x01] =
    some (.editLane (.byNumber 57)
      ⟨none, some ⟨false, false, false, false, false, false, true⟩, none, some true⟩) := by decide
theorem test_parse_choice_2 : parseFrame .supervision [0x21, 0x15, 0x00, 0x39, 0x00, 0x40, 0x02] = none := by decide
/-- CREATE LANE does not use NAME BY NUMBER. -/
theorem test_parse_create_lane :
    parseFrame .supervision [0x20, 0x08, 0x01, 0xAF, 0x01, 0x01, 0x00, 0x00] =
      some (.createLane ⟨431, 1, 1, noRest, none, some false, none⟩) ∧
    parseFrame .supervision [0x20, 0x01, 0x01, 0xAF, 0x01, 0x01, 0x00] = none := by decide
theorem test_parse_name_requests :
    parseFrame .supervision [0x22, 0x00, 0x00, 0xD6, 0x01] = some (.retireLane (.bySlot 214 1)) ∧
    parseFrame .supervision [0x23, 0x01, 0x00, 0x07, 0x00] = some (.lookupLane (.byNumber 7)) ∧
    parseFrame .supervision [0x24, 0x01, 0x00, 0x07, 0x00] = some (.lockLane (.byNumber 7)) ∧
    parseFrame .supervision [0x25, 0x01, 0x00, 0x07, 0x00] = some (.unlockLane (.byNumber 7)) ∧
    parseFrame .supervision [0x26, 0x01, 0x00, 0x07, 0x00] = some (.holdLane (.byNumber 7)) ∧
    parseFrame .supervision [0x27, 0x01, 0x00, 0x07, 0x00] = some (.releaseLane (.byNumber 7)) ∧
    parseFrame .supervision [0x28, 0x01, 0x00, 0x07, 0x00] = some (.requalifyLane (.byNumber 7)) := by decide
theorem test_parse_store_requests :
    parseFrame .supervision [0x29, 0x00, 0x00, 0xD6] = some (.retireSite 214) ∧
    parseFrame .supervision [0x2A, 0x20, 0x05, 0xFF] = some (.nextLane (some 1535)) ∧
    parseFrame .supervision [0x2A, 0x00] = some (.nextLane none) := by decide
theorem test_parse_policy_and_lot_requests :
    parseFrame .supervision [0x30, 0x40, 0x03] = some (.setPolicyUndefine 3) ∧
    parseFrame .supervision [0x31, 0x00, 0x03] = some (.readPolicy 3) ∧
    parseFrame .supervision [0x39, 0x00, 0x00, 0x9E, 0x45] = some (.readLot 40517) ∧
    parseFrame .supervision [0x39, 0x40, 0x00, 0x00, 0x00] = some (.readLotFollowing 0) ∧
    parseFrame .supervision [0x3A, 0x00, 0x00, 0x9E, 0x45] = some (.deleteLot 40517) := by decide
theorem test_parse_clock_and_sweep_requests :
    parseFrame .supervision [0x40, 0x00, 0x08, 0xFD, 0x02, 0xD0, 0x01] = some (.setClock 2301 720 1) ∧
    parseFrame .supervision [0x44, 0x00, 0x02, 0xD0] = some (.setDeadline 720) ∧
    parseFrame .supervision [0x49, 0x00, 0x00, 0x9E, 0x45] = some (.startRollout 40517) ∧
    parseFrame .supervision [0x4C, 0x00] = some .sweepStatus ∧
    parseFrame .supervision [0x50, 0x00] = some .takeNotice ∧
    parseFrame .supervision [0x51, 0x00, 0x01] = some (.setAttentionMode 1) ∧
    parseFrame .supervision [0x51, 0x00, 0x02] = none ∧ parseFrame .supervision [0x58, 0x80] = none := by decide

/-! ### Worked examples of the manual, one step each -/

/-- Table 5-7: the red trends and run counts after the first reading of day 2301. -/
theorem test_reading_2301 :
    ((laneAfter .evaluation morning 57).map fun l => (l.trend.r, l.runCount.r, l.lastDeviation.r, l.state)) =
      some (⟨⟨72, true⟩, ⟨348, true⟩, ⟨-92, true⟩, ⟨-178, true⟩⟩, ⟨0, 4, 0, 0⟩,
        ⟨some 6, some 27, some (-6), some (-7)⟩, .steady) := by decide

/-- Tables 5-8 and 6-4: on day 2303 the run of R-SPEED reaches 6, the outcome is TREND and the lane enters DRIFT. -/
theorem test_reading_2303 :
    let l : Lane := { lane57 with
      trend := { Points.all ⟨0, false⟩ with r := ⟨⟨78, true⟩, ⟨369, true⟩, ⟨-93, true⟩, ⟨-161, true⟩⟩ }
      runCount := { Points.all 0 with r := ⟨0, 5, 0, 0⟩ } }
    ((laneAfter .evaluation (desk [] .idle l (reportOf 61840 2301 red2301)) 57).map fun l =>
      (l.trend.r, l.runCount.r, l.state, l.counters.driftEntries, l.causes.drift)) =
      some (⟨⟨83, true⟩, ⟨385, true⟩, ⟨-94, true⟩, ⟨-149, true⟩⟩, ⟨0, 6, 0, 0⟩, .drift, 1, true) := by decide

/-- Tables 4-3 and 4-4: the deviations of lane 22's green and blue channels, an absent low step, a clipped maximum
patch, an unused point and two offsets. -/
theorem test_deviations_lane_22 :
    let pol : Policy := { paper with used := { Points.all true with b := ⟨false, true, true, true⟩ } }
    let l : Lane := { lane57 with offsets := ⟨⟨0, 0, 0, 0⟩, ⟨0, 12, 0, 0⟩, ⟨0, 0, 0, -30⟩⟩ }
    let rep : Report := { reportOf 61840 2301 red2301 with
      densities := ⟨⟨some 185, some 655, some 1290, some 2471⟩, ⟨some 230, none, some 1402, some 4000⟩,
        ⟨some 262, some 795, some 1470, some 2650⟩⟩
      clipped := { inEach ⟨false, false, false, false⟩ with g := ⟨false, false, false, true⟩ } }
    (entriesOf (results pol l ⟨⟨180, 640, 1310, 2480⟩, ⟨210, 700, 1390, 2620⟩, ⟨260, 780, 1460, 2710⟩⟩ rep)).map
        (fun e => (e.1.channel, e.2.deviation, e.2.gross, e.2.clipped)) =
      [(.r, 5, false, false), (.r, 10, false, false), (.r, -35, false, false), (.r, -9, false, false),
       (.g, 20, false, false), (.g, 1000, true, true),
       (.b, 13, false, false), (.b, -5, false, false), (.b, -30, false, false)] := by decide

/-- Table 4-5, report 6: a third rerun is refused RERUN LIMIT and counts one refusal. -/
theorem test_rerun_limit :
    let s := desk [] .idle { lane57 with lastDay := some 2301, rerunsToday := 2 } (reportOf 61840 2301 red2301)
    verdictAfter s = some (.refused .rerunLimit) ∧
    ((laneAfter .evaluation s 57).map fun l => (l.rerunsToday, l.counters.refusals)) = some (2, 1) := by decide

/-- Table 3-6, event 1: an ANNOUNCED lot that is neither active nor pending is refused LOT MISMATCH, with LOT REFUSED
raised. -/
theorem test_lot_mismatch :
    verdictAfter (desk [] .idle lane57 (reportOf 41022 2301 red2301)) = some (.refused .lotMismatch) ∧
    ((laneAfter .evaluation (desk [] .idle lane57 (reportOf 41022 2301 red2301)) 57).map fun l =>
      (l.causes.lotRefused, l.joined)) = some (true, some ⟨2301, 400⟩) := by decide

/-- Table 3-6, event 11: a pending crossover. The former active lot loses a user and the run counts start again. -/
theorem test_pending_crossover :
    let s := desk [] .idle { lane57 with pendingLot := some 41022 } (reportOf 41022 2301 red2301)
    ((nextOf (exec .evaluation s)).map fun t => t.lots.entries.map fun e => (e.1, e.2.users)) =
      some [(41022, 0), (61840, 0)] ∧
    ((laneAfter .evaluation s 57).map fun l => (l.activeLot, l.pendingLot, l.runCount.r, l.counters.crossovers)) =
      some (41022, none, ⟨0, 1, 0, 0⟩, 1) := by decide

/-- Table 2-2: the stored values of the policy of process type 3. -/
theorem test_stored_policy :
    let limits : Points Limits := { inEach ⟨⟨0, 0, 0, 0⟩, ⟨0, 0, 0, 0⟩, ⟨0, 0, 0, 0⟩, ⟨0, 0, 0, 0⟩⟩ with
      r := ⟨⟨-1200, -1000, 35, 25⟩, ⟨-80, -120, 60, 90⟩, ⟨0, 0, 0, 0⟩, ⟨0, 0, 0, 0⟩⟩ }
    let p := storedPolicy { paper with
      limits := limits, driftThreshold := Points.all 0, filterShift := 6, deadband := 150, runLength := 2
      settleCount := 10, clearCount := 0, overdueLimit := 3
      noticeMask := ⟨false, true, false, false, true, false, false⟩ }
    (p.limits.r.fog, p.limits.r.speed, p.driftThreshold.r.fog) =
      (⟨-1000, -1000, 25, 25⟩, ⟨-80, -80, 60, 90⟩, 1) ∧
    (p.filterShift, p.deadband, p.runLength, p.settleCount, p.clearCount, p.overdueLimit) = (4, 100, 3, 8, 1, 3) ∧
    p.noticeMask = ⟨false, true, true, false, true, false, false⟩ := by decide

/-- Table 6-5, readings 3, 5 and 8: a completed clear count without and with AUTO-CLEAR. -/
theorem test_clear_counts :
    let l : Lane := { lane57 with state := .action, cleanProgress := 2, autoClear := false }
    moveLane paper l .clean = ⟨.action, 0, 3, none⟩ ∧
    moveLane { paper with clearCount := 2 } { l with cleanProgress := 3 } .clean = ⟨.action, 0, 2, none⟩ ∧
    moveLane { paper with clearCount := 2 } { l with cleanProgress := 1, autoClear := true } .clean =
      ⟨.steady, 0, 0, some .cleared⟩ := by decide

/-- Table 7-3: the missed-strip counts of lanes 30, 31 and 32 on day 1007, minute 740. -/
theorem test_missed_strips :
    let c : DayClock := ⟨1007, 740, 1, true, 720⟩
    let sunday : Weekdays := { noRest with sunday := true }
    missedStrips c { lane57 with restMask := sunday, lastDay := some 1003 } = 3 ∧
    missedStrips c { lane57 with restMask := { sunday with saturday := true }, createdDay := 1005, lastDay := none } = 1 ∧
    missedStrips c { lane57 with restMask := sunday, lastDay := some 1001 } = 5 := by decide

/-- Section 1.9, event 3: the entry of store 87 goes before that of store 214, and the lane takes the lowest place. -/
theorem test_create_lane_directory :
    ((nextOf (exec (.createLane ⟨87, 0, 1, noRest, none, none, none⟩) morning)).map fun t =>
      (t.store.directory, (t.lane 0).map fun l => (l.store, l.activeLot, l.state))) =
      some ([⟨87, ⟨some 0, none, none, none⟩⟩, ⟨431, ⟨none, some 57, none, none⟩⟩],
        some (87, 61840, .settling)) := by decide

/-- Section 1.9, events 7 and 9: RETIRE SITE skips a locked lane, and a slot that holds a lane refuses another. -/
theorem test_retire_site_skips_locked :
    replyOf (.retireSite 431 .inactive) (desk [] .idle { lane57 with locked := true } (reportOf 1 1 red2301)) =
      some (.done (.siteRetired 431 ⟨.empty, .skippedLocked, .empty, .empty⟩)) ∧
    replyOf (.createLane ⟨431, 1, 1, noRest, none, none, none⟩) morning = some (.bare .laneExists) := by decide

/-- Table 8-4, event 3: a rollout step replaces another pending lot, and both user counts move. -/
theorem test_rollout_step_replaces :
    let s : State := { desk [] .idle { lane57 with pendingLot := some 41022 } (reportOf 1 1 red2301) with
      lots := ⟨[(41022, ⟨1, .announced, references, 1, 2205⟩), (70455, ⟨1, .rolling, references, 1, 2300⟩)], 2⟩
      sweeps := ⟨.running ⟨.rollout 70455, .request, 57, 1⟩, false, 0, false, none⟩ }
    ((nextOf (exec .rolloutStep s)).map fun t =>
      ((t.lots.entries.map fun e => e.2.users), (t.lane 57).map Lane.pendingLot, t.sweeps.engine)) =
      some ([0, 2], some (some 70455), .running ⟨.rollout 70455, .request, 58, 2⟩) := by decide

/-- Table 9-1, event 5: the notice of lane 5, its join stamp, and the length left. -/
theorem test_take_notice :
    let l : Lane := { lane57 with causes := Causes.empty.add .lotRefused, joined := some ⟨2400, 430⟩ }
    let s : State := { desk [] .idle l (reportOf 1 1 red2301) with attention := ⟨[57, 4, 9], 3, .level, 0, false⟩ }
    replyOf .takeNotice s = some (.done (.notice
      ⟨57, 431, 1, Causes.empty.add .lotRefused, .steady, false, true, true, false, ⟨2400, 430⟩⟩ 2)) := by decide

/-- Section 11.4: a refused verdict is 10 bytes, and its COLLECT reply 14. -/
theorem test_reply_lengths :
    let v : Verdict := ⟨some 17, 618, 0, some 12, inEach ⟨false, false, false, false⟩, .refused .lotUnknown⟩
    (verdictBytes v).length = 10 ∧ (replyBytes (.done (.collected v 0))).length = 14 := by decide

/-- Section 11.4: the entry of G-DMAX reads identity 7, zone ACTION HIGH, deviation +1000 and marks 3; the
clipped-patches field has bit 7 set for the G maximum patch. -/
theorem test_verdict_entry_g_dmax :
    (let b := entryBytes (⟨.g, .dmax⟩, ⟨1000, true, true, .actionHigh, 0, 0⟩)
     (read1 b 0, read1 b 1, readSigned2 b 2, read1 b 7) = (7, 4, 1000, 3)) ∧
    patchBits { inEach ⟨false, false, false, false⟩ with g := ⟨false, false, false, true⟩ } = [0x00, 0x80] := by decide

/-- Table 7-1 and R131: the tick at the last moment stops the clock. -/
theorem test_last_moment :
    ((nextOf (exec .clockLastMomentStop { morning with clock := ⟨65535, 1439, 0, true, 720⟩ })).map State.clock) =
      some ⟨65535, 1439, 0, false, 720⟩ := by decide

/-! ### The small state is sound -/

theorem desk_lane (cs : List Instr) (f : Framer) (l : Lane) (rep : Report) (n : Nat) :
    (desk cs f l rep).lane n = if 57 = n then some l else none := rfl

/-- The one lane of the small state. -/
theorem desk_lane_eq {cs : List Instr} {f : Framer} {l l' : Lane} {rep : Report} {n : Nat}
    (h : (desk cs f l rep).lane n = some l') : n = 57 ∧ l' = l := by
  rw [desk_lane] at h
  split at h
  · rename_i hn; cases h; exact ⟨hn.symm, rfl⟩
  · cases h

theorem desk_poolSound (cs : List Instr) (f : Framer) (l : Lane) (rep : Report) : PoolSound (desk cs f l rep) :=
  ⟨List.pairwise_singleton .., fun e he => by rw [List.mem_singleton.mp he]; show 57 < 1536; decide, rfl⟩

theorem desk_directorySound (cs : List Instr) (f : Framer) (l : Lane) (rep : Report) (h₁ : l.store = 431)
    (h₂ : l.slot = 1) : DirectorySound (desk cs f l rep) where
  ascending := List.pairwise_singleton ..
  count := rfl
  capacity := by show 1 ≤ 512; decide
  occupied := fun e he => by rw [List.mem_singleton.mp he]; decide
  names := fun e he i n hn => by
    rw [List.mem_singleton.mp he] at hn ⊢
    match i with
    | 0 => cases hn
    | 1 => cases hn; exact ⟨l, rfl, h₁, h₂⟩
    | 2 => cases hn
    | 3 => cases hn
  named := fun n l' hl => by
    obtain ⟨rfl, rfl⟩ := desk_lane_eq hl
    exact ⟨_, List.mem_singleton.mpr rfl, h₁.symm, by rw [h₂]; rfl⟩

theorem desk_lanesServed (cs : List Instr) (f : Framer) (rep : Report) : LanesServed (desk cs f lane57 rep) :=
  fun n l hl => by
    obtain ⟨rfl, rfl⟩ := desk_lane_eq hl
    exact ⟨rfl, rfl, fun _ h => nomatch h⟩

theorem paper_inRange : PolicyInRange paper where
  limits := fun ⟨c, q⟩ => by cases c <;> cases q <;> decide
  threshold := fun ⟨c, q⟩ => by cases c <;> cases q <;> decide
  shift := by decide
  deadband := by decide
  runLength := by decide
  settle := by decide
  clear := by decide
  overdue := by decide
  action := rfl

theorem lane57_inRange : LaneInRange lane57 where
  store := by decide
  settle := by decide
  clean := by decide
  settleOnly := fun _ _ => rfl
  cleanOnly := fun _ _ _ => rfl
  offsets := fun ⟨c, q⟩ => by cases c <;> cases q <;> decide
  trend := fun ⟨c, q⟩ => by cases c <;> cases q <;> decide
  unseeded := fun ⟨c, q⟩ => by cases c <;> cases q <;> decide
  runCount := fun ⟨c, q⟩ => by cases c <;> cases q <;> decide
  lastDeviation := fun ⟨c, q⟩ d h => by cases c <;> cases q <;> cases h
  created := by decide
  lastDay := fun d h => by cases h; decide
  reruns := by decide
  held := fun h => nomatch h
  counters := by constructor <;> decide
  summary := by constructor <;> decide
  tag := by decide

theorem desk_policiesSound (cs : List Instr) (f : Framer) (rep : Report) : PoliciesSound (desk cs f lane57 rep) where
  inRange := fun t p h => by
    match t with
    | 1 => cases h; exact paper_inRange
    | 0 | 2 | 3 | 4 | 5 | 6 | 7 => cases h
  count := fun t => by
    match t with
    | 0 | 1 | 2 | 3 | 4 | 5 | 6 | 7 => rfl
  defined := fun n l hl => by obtain ⟨rfl, rfl⟩ := desk_lane_eq hl; rfl

/-- The two lots of the small state. -/
theorem desk_lot {cs : List Instr} {f : Framer} {l : Lane} {rep : Report} {n : Nat} {e : Lot}
    (h : Table.find n (desk cs f l rep).lots.entries = some e) :
    n = 41022 ∧ e = ⟨1, .announced, references, 0, 2205⟩ ∨ n = 61840 ∧ e = ⟨1, .current, references, 1, 2100⟩ := by
  have h' : (if 41022 = n then some _ else if 61840 = n then some _ else none) = some e := h
  split at h'
  · rename_i hn; cases h'; exact .inl ⟨hn.symm, rfl⟩
  · split at h'
    · rename_i hn; cases h'; exact .inr ⟨hn.symm, rfl⟩
    · cases h'

theorem desk_lotsSound (cs : List Instr) (f : Framer) (rep : Report) : LotsSound (desk cs f lane57 rep) where
  canonical := by show Table.wf (desk [] .idle lane57 (reportOf 1 1 red2301)).lots.entries; decide
  count := rfl
  capacity := by show 2 ≤ 32; decide
  numbers := fun n e h => by rcases desk_lot h with ⟨rfl, rfl⟩ | ⟨rfl, rfl⟩ <;> decide
  references := fun n e h => by rcases desk_lot h with ⟨rfl, rfl⟩ | ⟨rfl, rfl⟩ <;> decide
  users := fun n e h => by rcases desk_lot h with ⟨rfl, rfl⟩ | ⟨rfl, rfl⟩ <;> rfl
  active := fun n l hl => by obtain ⟨rfl, rfl⟩ := desk_lane_eq hl; exact ⟨_, rfl, rfl⟩
  pendingLot := fun n l p hl hp => by obtain ⟨rfl, rfl⟩ := desk_lane_eq hl; cases hp
  oneCurrent := fun a b x y ha hb hx hy _ => by
    rcases desk_lot ha with ⟨rfl, rfl⟩ | ⟨rfl, rfl⟩
    · cases hx
    · rcases desk_lot hb with ⟨rfl, rfl⟩ | ⟨rfl, rfl⟩
      · cases hy
      · rfl
  rolling := fun n e h => by
    rcases desk_lot h with ⟨rfl, rfl⟩ | ⟨rfl, rfl⟩ <;> exact ⟨(nomatch ·), fun ⟨_, h, _⟩ => nomatch h⟩
  rolled := fun _ _ h => nomatch h

/-- The small state is sound, with lane 57 as it stands on day 2301 and any waiting commands the ports can carry. -/
theorem desk_sound (cs : List Instr) (f : Framer) (rep : Report) (hcs : ∀ c ∈ cs, c.WellFormed = true)
    (hf : ∀ r, f ≠ .answering r) : Sound (desk cs f lane57 rep) where
  pending := hcs
  ports := {
    reset := fun h => nomatch h
    clearing := fun h => nomatch h
    answering := fun p r h => by
      cases p with
      | strip => exact absurd h (hf r)
      | supervision => cases h }
  queues := ⟨by show 1 ≤ 24; decide, Nat.zero_le _, by show 1 < 256; decide,
    by show [some 0] = ticketsBefore 1 1; decide⟩
  pool := desk_poolSound ..
  directory := desk_directorySound _ _ _ _ rfl rfl
  policies := desk_policiesSound ..
  lots := desk_lotsSound ..
  lanes := fun n l hl => by obtain ⟨rfl, rfl⟩ := desk_lane_eq hl; exact lane57_inRange
  clock := ⟨by show 2301 ≤ 65535; decide, by show 400 ≤ 1439; decide, by show 1 ≤ 6; decide,
    by show 720 ≤ 1439; decide⟩
  sweeps := {
    cursor := fun _ h => nomatch h
    origin := fun _ h => nomatch h
    pendingOverdue := fun h => nomatch h
    period := Nat.zero_le _
    tags := fun n l hl => by obtain ⟨rfl, rfl⟩ := desk_lane_eq hl; exact .inl rfl }
  list := {
    once := List.nodup_nil
    length := rfl
    listed := fun n => ⟨(nomatch ·), fun ⟨l, hl, hc⟩ => by
      obtain ⟨rfl, rfl⟩ := desk_lane_eq hl; exact absurd rfl hc⟩
    stamped := fun n l hl => by
      obtain ⟨rfl, rfl⟩ := desk_lane_eq hl; exact ⟨(nomatch ·), fun h => absurd rfl h⟩
    owed := Nat.zero_le _
    level := fun _ => rfl
    pulse := fun h => nomatch h }

/-! ### Witnesses: the hypotheses of each statement are met together, clause by clause at the boundaries -/

/-- The small state with the Strip Port's framer in a state, the part ready or not, reset or not. -/
def atPort (f : Framer) (ready reset : Bool) : State :=
  { morning with lines := ⟨ready, reset, .inactive⟩, ports := ⟨⟨f, []⟩, .idle⟩ }

/-- The small state with lane 57 changed. -/
def withLane (l : Lane) : State := desk [] .idle l (reportOf 61840 2301 red2301)

/-- The small state with the sweep engine running a sweep. -/
def sweeping (w : Sweep) (overdue : Bool) : State :=
  { morning with sweeps := ⟨.running w, overdue, 0, false, none⟩ }

theorem test_witness_StepRunsTheFrontCommand :
    (desk [.evaluation, .identify] .idle lane57 (reportOf 1 1 red2301)).pending = .evaluation :: [.identify] ∧
    morning.pending = [] := ⟨rfl, rfl⟩

theorem test_witness_CommandsKeepTheQueueAndNeverRefuse : ∃ t, exec .identify morning = .next t := ⟨_, rfl⟩

theorem test_witness_RequestsNotTaken :
    Instr.request .collect = some (.strip, .collect) ∧
    (atPort .idle true true).lines.resetAsserted = true ∧
    openTo .collect ((atPort (.answering (.submit topReport)) true false).framer .strip) = false ∧
    (Instr.request (.setAttentionMode 2) = some (.supervision, .setAttentionMode 2) ∧
      structureOk (.setAttentionMode 2) = false ∧
      openTo (.setAttentionMode 2) ((atPort .idle true false).framer .supervision) = true) ∧
    (structureOk .collect = true ∧ (atPort .idle false false).lines.ready = false ∧
      openTo .collect ((atPort .idle false false).framer .strip) = true) := by decide

theorem test_witness_RequestFramesBeginAndEnd :
    ((atPort .idle true true).lines.resetAsserted = true ∧ (atPort .idle true false).lines.resetAsserted = false) ∧
    (atPort .idle true false).framer .strip = .idle ∧
    (atPort (.replyHeld (.bare .none)) true false).framer .strip = .replyHeld (.bare .none) ∧
    (atPort (.answering .collect) true false).framer .strip = .answering .collect ∧
    (atPort .taking true false).framer .strip = .taking ∧ parseFrame .strip [0x11] = none ∧
    parseFrame .strip [0x11, 0x00] = some .collect ∧ (atPort .taking false false).lines.ready = false ∧
    (atPort .taking true false).lines.ready = true ∧
    stripReplyReady (atPort (.replyHeld (.bare .none)) true false) = true ∧
    stripReplyReady (atPort .taking true false) = false := by decide

theorem test_witness_ReadFramesShiftTheReplyOut :
    (atPort .idle true true).lines.resetAsserted = true ∧
    (atPort .taking true false).framer .strip = .taking ∧ (atPort .idle true false).framer .strip = .idle ∧
    (atPort (.answering .collect) true false).framer .strip = .answering .collect ∧
    (atPort (.replyHeld (.bare .none)) true false).framer .strip = .replyHeld (.bare .none) ∧
    (replyBytes (.bare .none)).length ≤ 3 ∧ 2 < (replyBytes (.bare .none)).length := by decide

theorem test_witness_RequestsReadBackFromTheirFrames :
    Request.WellFormed (.submit topReport) = true ∧ structureOk (.submit topReport) = true ∧
    Port.supervision ≠ requestPort (.submit topReport) := by decide

theorem test_witness_ParsedFramesCarryWellFormedRequests : ∃ r, parseFrame .strip submitFrame = some r :=
  ⟨_, test_parse_submit⟩

theorem test_witness_RecordsAndRepliesHaveTheirLengths :
    (let v : Verdict := ⟨some 255, 65535, 3, none, inEach ⟨false, false, false, false⟩, .refused .noLane⟩
     v.body = .refused .noLane ∧ (∀ ticket, v.ticket = some ticket → ticket < 256) ∧ v.store < 65536 ∧ v.slot < 256 ∧
      ∀ n, v.lane = some n → n < 65536) ∧
    (let e : PointResult := ⟨-1000, true, true, .actionLow, -16000, -15⟩
     let v : Verdict := ⟨none, 1, 0, some 1535, inEach ⟨false, false, false, false⟩,
      .evaluated .clean .steady .none (Point.order.map fun p => (p, e))⟩
     v.body = .evaluated .clean .steady .none (Point.order.map fun p => (p, e)) ∧
      (Point.order.map fun p => (p, e)).length ≤ 12 ∧
      (Point.order.map fun p => (p, e))[11]? = some (⟨.b, .dmax⟩, e) ∧ -1000 ≤ e.deviation ∧ e.deviation ≤ 1000 ∧
      -16000 ≤ e.trend ∧ e.trend ≤ 16000 ∧ -15 ≤ e.runCount ∧ e.runCount ≤ 15 ∧
      (∀ ticket, v.ticket = some ticket → ticket < 256) ∧ ∀ n, v.lane = some n → n < 65536) ∧
    (doneBytes .identity).length < 65536 ∧ PolicyInRange paper ∧
    (LaneInRange lane57 ∧ lane57.activeLot < 16777216 ∧ ∀ lot, lane57.pendingLot = some lot → lot < 16777216) ∧
    (let r : Notice := ⟨1535, 65535, 3, .empty, .held, false, false, false, false, ⟨65535, 1439⟩⟩
     r.lane < 65536 ∧ r.store < 65536 ∧ r.stamp.day < 65536 ∧ r.stamp.minute < 65536) :=
  ⟨⟨rfl, by simp, by decide, by decide, nofun⟩,
   ⟨rfl, by decide, by decide, by decide, by decide, by decide, by decide, by decide, by decide, nofun, by simp⟩,
   by decide, paper_inRange, ⟨lane57_inRange, by decide, nofun⟩, by decide⟩

/-- A refused verdict. -/
def someVerdict : Verdict := ⟨some 0, 1, 0, none, inEach ⟨false, false, false, false⟩, .refused .noLane⟩

/-- The small state with the queues filled to given depths. -/
def queued (intake verdicts : Nat) : State :=
  { morning with queues :=
    ⟨List.replicate intake ⟨0, reportOf 61840 2301 red2301⟩, List.replicate verdicts someVerdict, 1⟩ }

theorem test_witness_SubmitAppendsAndCollectTakesTheHead :
    (Takes .strip (.submit topReport) (queued 24 0) ∧ 24 ≤ (queued 24 0).queues.intake.length) ∧
    (Takes .strip (.submit topReport) (queued 23 0) ∧ (queued 23 0).queues.intake.length < 24) ∧
    (Takes .strip .collect (queued 0 0) ∧ (queued 0 0).queues.verdicts = []) ∧
    (Takes .strip .collect (queued 0 1) ∧ (queued 0 1).queues.verdicts = [someVerdict]) := by decide

theorem test_witness_EvaluationTakesOneReport :
    (¬Awake (atPort .idle false false) ∧ ¬Awake (atPort .idle true true)) ∧ (queued 0 0).queues.intake = [] ∧
    24 ≤ (queued 1 24).queues.verdicts.length ∧
    LanesServed morning ∧ Awake morning ∧ morning.queues.verdicts.length < 24 ∧
    morning.queues.intake = [⟨0, reportOf 61840 2301 red2301⟩] ∧ (queued 1 23).queues.verdicts.length < 24 := by
  refine ⟨by decide, by decide, by decide, desk_lanesServed _ _ _, ?_⟩
  decide

/-- The engine takes the waiting report of lane 57. -/
theorem judges_desk (l : Lane) (rep : Report) (h₁ : rep.store = 431) (h₂ : rep.slot = 1) (h₃ : l.type = 1) :
    Judges (desk [] .idle l rep) ⟨0, rep⟩ [] 57 l paper where
  awake := ⟨rfl, rfl⟩
  room := by show 0 < 24; decide
  head := rfl
  lane := by rw [h₁, h₂]; rfl
  policy := by rw [h₃]; rfl

theorem test_witness_ReportsRefusedByTheirDay :
    (∃ s q rest n l pol, Judges s q rest n l pol ∧ l.state = .held) ∧
    (∃ s q rest n l pol, Judges s q rest n l pol ∧ l.state ≠ .held ∧ q.report.day < l.lastDay.getD l.createdDay) ∧
    (∃ s q rest n l pol, Judges s q rest n l pol ∧ l.state ≠ .held ∧ l.lastDay.getD l.createdDay ≤ q.report.day ∧
      s.clock.day < q.report.day) ∧
    (∃ s q rest n l pol, Judges s q rest n l pol ∧ l.state ≠ .held ∧ q.report.day ≤ s.clock.day ∧
      l.lastDay = some q.report.day ∧ l.rerunsToday = 2) :=
  ⟨⟨_, _, _, _, _, _, judges_desk { lane57 with state := .held } (reportOf 61840 2301 red2301) rfl rfl rfl, rfl⟩,
   ⟨_, _, _, _, _, _, judges_desk lane57 (reportOf 61840 2299 red2301) rfl rfl rfl, by decide, by decide⟩,
   ⟨_, _, _, _, _, _, judges_desk lane57 (reportOf 61840 2302 red2301) rfl rfl rfl, by decide, by decide, by decide⟩,
   ⟨_, _, _, _, _, _, judges_desk { lane57 with lastDay := some 2301, rerunsToday := 2 } (reportOf 61840 2301 red2301)
      rfl rfl rfl, by decide, by decide, rfl, rfl⟩⟩

/-- A strip of day 2301, the clock's day, passes lane 57's day checks. -/
theorem passes_desk (l : Lane) (rep : Report) (h₁ : l.state = .steady) (h₂ : l.lastDay = some 2300)
    (h₃ : rep.day = 2301) : PassesDayChecks (desk [] .idle l rep) l rep.day where
  notHeld := by rw [h₁]; decide
  notStale := by rw [h₂, h₃]; show 2300 ≤ 2301; decide
  notAhead := by rw [h₃]; exact Nat.le_refl _
  rerunLeft := fun h => by rw [h₂, h₃] at h; cases h.1

/-- A report with no patch read evaluates no point. -/
theorem not_evaluated (l : Lane) (p : Point) (v : Int) :
    ¬EvaluatedAt paper (reportOf l.activeLot 2301 ⟨none, none, none, none⟩) p v := by
  rintro ⟨-, h⟩
  obtain ⟨c, q⟩ := p
  cases c <;> cases q <;> cases h

theorem test_witness_ReportsRefusedForLotOrData :
    (∃ s q rest n l pol, Judges s q rest n l pol ∧ PassesDayChecks s l q.report.day ∧
      ∀ c, ¬ResolvesTo s l q.report.lot c) ∧
    (∃ s q rest n l pol, Judges s q rest n l pol ∧ PassesDayChecks s l q.report.day ∧ q.report.lot = l.activeLot ∧
      ∀ p v, ¬EvaluatedAt pol q.report p v) := by
  refine ⟨⟨_, _, _, _, _, _, judges_desk lane57 (reportOf 41022 2301 red2301) rfl rfl rfl,
      passes_desk _ _ rfl rfl rfl, fun c h => ?_⟩,
    ⟨_, _, _, _, _, _, judges_desk lane57 (reportOf 61840 2301 ⟨none, none, none, none⟩) rfl rfl rfl,
      passes_desk _ _ rfl rfl rfl, rfl, not_evaluated lane57⟩⟩
  cases h with
  | active h => exact absurd h (by decide)
  | pending _ h => cases h
  | auto e _ _ h _ h' _ =>
    rcases desk_lot h with ⟨-, rfl⟩ | ⟨h₁, -⟩
    · rcases h' with h' | h' <;> cases h'
    · exact absurd h₁ (by decide)

/-- Lane 57 with AUTO-CROSS permitted, active on the other lot: its report's lot is CURRENT and of its type. -/
def laneBehind : Lane := { lane57 with activeLot := 41022 }

theorem auto_desk (rep : Report) (h : rep.lot = 61840) : ResolvesTo (desk [] .idle laneBehind rep) laneBehind rep.lot .auto := by
  rw [h]
  exact .auto ⟨1, .current, references, 1, 2100⟩ (by decide) (by decide) rfl rfl (.inl rfl) rfl

theorem test_witness_CrossoversMoveTheLots :
    (∃ s q rest n l pol, Judges s q rest n l pol ∧ PassesDayChecks s l q.report.day ∧
      ResolvesTo s l q.report.lot .pending ∧ (Table.find q.report.lot s.lots.entries).isSome = true) ∧
    (∃ s q rest n l pol, Judges s q rest n l pol ∧ PassesDayChecks s l q.report.day ∧
      ResolvesTo s l q.report.lot .auto ∧ (Table.find q.report.lot s.lots.entries).isSome = true ∧
      ∀ p v, ¬EvaluatedAt pol q.report p v) :=
  ⟨⟨_, _, _, _, _, _, judges_desk { lane57 with pendingLot := some 41022 } (reportOf 41022 2301 red2301) rfl rfl rfl,
      passes_desk _ _ rfl rfl rfl, .pending (by decide) rfl, rfl⟩,
   ⟨_, _, _, _, _, _, judges_desk laneBehind (reportOf 61840 2301 ⟨none, none, none, none⟩) rfl rfl rfl,
      passes_desk _ _ rfl rfl rfl, auto_desk _ rfl, rfl, not_evaluated lane57⟩⟩

/-- The three ways an evaluated reading is accepted: the active lot, the pending lot, and an auto-crossover. The
hypotheses of `ReadingsWriteTheirPoints`, `ReadingsWriteTheirDay` and `ReadingsMoveTheLane`. -/
theorem test_witness_ReadingsOfEachCase :
    (∃ s q rest n l pol e, Accepts s q rest n l pol .active e ∧ l.pendingLot.isSome = true) ∧
    (∃ s q rest n l pol e, Accepts s q rest n l pol .pending e) ∧
    (∃ s q rest n l pol e, Accepts s q rest n l pol .auto e) :=
  ⟨⟨_, _, _, _, _, _, _, ⟨judges_desk { lane57 with pendingLot := some 41022 }
      (reportOf 61840 2301 red2301) rfl rfl rfl, passes_desk _ _ rfl rfl rfl, .active rfl, rfl, ⟨.r, .fog⟩, 126, rfl,
      rfl⟩, rfl⟩,
   ⟨_, _, _, _, _, _, _, judges_desk { lane57 with pendingLot := some 41022 } (reportOf 41022 2301 red2301) rfl rfl rfl,
      passes_desk _ _ rfl rfl rfl, .pending (by decide) rfl, rfl, ⟨.r, .fog⟩, 126, rfl, rfl⟩,
   ⟨_, _, _, _, _, _, _, judges_desk laneBehind (reportOf 61840 2301 red2301) rfl rfl rfl, passes_desk _ _ rfl rfl rfl,
      auto_desk _ rfl, rfl, ⟨.r, .fog⟩, 126, rfl, rfl⟩⟩

/-- The report of day 2301 as a frame carries it. -/
def strip2301 : StripReport := ⟨431, 1, 61840, 2301, (reportOf 61840 2301 red2301).densities⟩

theorem test_witness_ProveChangesNothing :
    Takes .supervision (.prove strip2301) morning ∧ LanesServed morning ∧
    ∃ t, exec (.prove strip2301) morning = .next t := ⟨by decide, desk_lanesServed _ _ _, _, rfl⟩

theorem test_witness_ProveForetellsTheEvaluation :
    Takes .supervision (.prove strip2301) morning ∧ LanesServed morning ∧ morning.queues.verdicts.length < 24 ∧
    morning.queues.intake = [⟨0, reportOf 61840 2301 red2301⟩] ∧ reportOf 61840 2301 red2301 = takeIn strip2301 :=
  ⟨by decide, desk_lanesServed _ _ _, by decide, by decide, by decide⟩

/-- The four ways a trial's lot case is found: no lane, refused by the day checks, accepted by a case, and refused
by lot resolution, of a known lot and of an unknown one. -/
theorem test_witness_TrialCases :
    (morning.laneAt 430 1).isNone = true ∧
    (∃ s n l, s.laneAt strip2301.store strip2301.slot = some (n, l) ∧ LanesServed s ∧
      ¬PassesDayChecks s l strip2301.day) ∧
    (∃ n l, morning.laneAt strip2301.store strip2301.slot = some (n, l) ∧ PassesDayChecks morning l strip2301.day ∧
      ResolvesTo morning l strip2301.lot .active ∧
      ∀ lot, lot = 41022 ∨ lot = 99999 → ∀ c, ¬ResolvesTo morning l lot c) ∧
    (Table.find 41022 morning.lots.entries).isSome = true ∧ Table.find 99999 morning.lots.entries = none := by
  refine ⟨by decide, ⟨withLane { lane57 with state := .held }, 57, _, rfl, fun n l hl => ?_, fun h => h.notHeld rfl⟩,
    ⟨57, lane57, rfl, passes_desk lane57 (reportOf 61840 2301 red2301) rfl rfl rfl, .active rfl,
      fun lot hlot c h => ?_⟩, by decide, by decide⟩
  · obtain ⟨rfl, rfl⟩ := desk_lane_eq hl
    exact ⟨rfl, rfl, nofun⟩
  · cases h with
    | active h => rcases hlot with rfl | rfl <;> exact absurd h (by decide)
    | pending _ h => cases h
    | auto e _ _ h _ h' _ =>
      rcases desk_lot h with ⟨-, rfl⟩ | ⟨rfl, -⟩
      · rcases h' with h' | h' <;> cases h'
      · exact absurd hlot (by decide)

theorem test_witness_FilterStepsRoundToNearest :
    ∃ (rs : Points (Option PointResult)) (p : Point) (r : PointResult), rs.pick p = some r :=
  ⟨Points.all (some ⟨6, false, false, .centre, 72, 0⟩), ⟨.r, .fog⟩, _, rfl⟩

theorem test_witness_TrendsStayBetweenValueAndTarget :
    (∀ e ∈ [(⟨-16000, true⟩ : Trend), ⟨16000, true⟩, ⟨0, false⟩], -16000 ≤ e.value ∧ e.value ≤ 16000 ∧
      (e.seeded = false → e.value = 0)) ∧
    ∃ s t n l, Sound s ∧ step s = .next t ∧ t.lane n = some l :=
  ⟨by decide, _, _, 57, _, desk_sound [.evaluation] .idle (reportOf 61840 2301 red2301) (by decide) (by simp), rfl, rfl⟩

theorem test_witness_ZonesRunCountsAndOutcomes :
    (paper.limits.pick ⟨.r, .fog⟩).actionLow ≤ (paper.limits.pick ⟨.r, .fog⟩).warnLow ∧
    (paper.limits.pick ⟨.r, .fog⟩).warnLow ≤ 0 ∧ 0 ≤ (paper.limits.pick ⟨.r, .fog⟩).warnHigh ∧
    (paper.limits.pick ⟨.r, .fog⟩).warnHigh ≤ (paper.limits.pick ⟨.r, .fog⟩).actionHigh ∧
    [-1000, 20, 21, 40, 41].map (zoneOf (paper.limits.pick ⟨.r, .fog⟩)) =
      [.centre, .centre, .warnHigh, .warnHigh, .actionHigh] ∧
    [(10, 15), (11, 15), (11, -15), (-10, -15), (-11, -15), (-11, 15)].map
      (fun x : Int × Int => newRunCount 10 x.2 x.1) = [0, 15, 1, 0, -15, -1] := by decide

theorem test_witness_LaneStatesMoveByOutcome :
    ([LaneState.settling, .watch, .drift, .action].map fun st => ({ lane57 with state := st } : Lane).state) =
      [.settling, .watch, .drift, .action] := by decide

theorem test_witness_SteadyLanesMoveByOutcome : lane57.state = .steady := rfl

theorem test_witness_StoredPoliciesAreInRange : PolicyInRange paper := paper_inRange

/-! #### Requests of the Lane Store -/

/-- A table of the same record at every number below a bound. -/
def upTo {α : Type} (k : Nat) (x : α) : Table α := (List.range k).map fun n => (n, x)

theorem wf_upTo {α : Type} (k : Nat) (x : α) : Table.wf (upTo k x) :=
  List.pairwise_map.mpr List.pairwise_lt_range

theorem find_upTo {α : Type} {k n : Nat} (x : α) (h : n < k) : Table.find n (upTo k x) ≠ none := by
  have := Table.find_of_mem (wf_upTo k x) (List.mem_map.mpr ⟨n, List.mem_range.mpr h, rfl⟩)
  rw [this]; exact Option.some_ne_none _

/-- The places below `k` occupied. -/
def occupied (k : Nat) : State := { morning with store := ⟨upTo k lane57, k, [], 0⟩ }

theorem occupied_sound (k : Nat) (hk : k ≤ 1536) : PoolSound (occupied k) where
  canonical := wf_upTo k lane57
  places := fun e he => by
    obtain ⟨n, hn, rfl⟩ := List.mem_map.mp (show e ∈ upTo k lane57 from he)
    exact Nat.lt_of_lt_of_le (List.mem_range.mp hn) hk
  count := by show k = (upTo k lane57).length; simp [upTo]

theorem occupied_lane {k m : Nat} (h : m < k) : (occupied k).lane m ≠ none := find_upTo lane57 h

theorem occupied_takes (k : Nat) (r : Request) (h : structureOk r = true) : Takes .supervision r (occupied k) :=
  ⟨rfl, rfl, rfl, h⟩

/-- A directory of the stores 1 to `k`. -/
def directoryOf (k : Nat) : State :=
  { morning with store := { morning.store with
      directory := (List.range k).map fun n => ⟨n + 1, ⟨some 0, none, none, none⟩⟩ } }

theorem directoryOf_sound (k : Nat) : PoolSound (directoryOf k) :=
  ⟨(desk_poolSound [] .idle lane57 (reportOf 61840 2301 red2301)).canonical,
    (desk_poolSound [] .idle lane57 (reportOf 61840 2301 red2301)).places, rfl⟩

theorem directoryOf_takes (k : Nat) (r : Request) (h : structureOk r = true) :
    Takes .supervision r (directoryOf k) := ⟨rfl, rfl, rfl, h⟩

theorem directoryOf_slots (k : Nat) : siteSlots (k + 1) (directoryOf k).store.directory = none := by
  cases h : siteSlots (k + 1) (directoryOf k).store.directory with
  | none => rfl
  | some x =>
    obtain ⟨e, he, h₁, -⟩ := siteSlots_mem h
    obtain ⟨n, hn, rfl⟩ := List.mem_map.mp (show e ∈ (List.range k).map _ from he)
    have := List.mem_range.mp hn
    dsimp only at h₁
    omega

theorem directoryOf_length (k : Nat) : (directoryOf k).store.directory.length = k := by
  show ((List.range k).map _).length = k
  simp

/-- A creation in a store and slot, of a type. -/
def creation (store slot type : Nat) : LaneCreation := ⟨store, slot, type, noRest, none, none, none⟩

theorem test_witness_CreateLaneMakesTheLane :
    (Takes .supervision (.createLane (creation 65535 3 1)) morning ∧ PoolSound morning ∧ DirectorySound morning ∧
      ((siteSlots 65535 morning.store.directory).bind fun x => x.get 3) = none ∧
      (morning.policies.get 1).policy.isSome = true ∧ lotInState 1 .current morning.lots.entries = some 61840 ∧
      morning.lane 0 = none ∧ (∀ m, m < 0 → (morning.lane m).isSome = true) ∧
      siteSlots 65535 morning.store.directory = none ∧ morning.store.directory.length < 512) ∧
    (Takes .supervision (.createLane (creation 431 0 1)) morning ∧
      ((siteSlots 431 morning.store.directory).bind fun x => x.get 0) = none ∧
      siteSlots 431 morning.store.directory ≠ none) :=
  ⟨⟨by decide, desk_poolSound _ _ _ _, desk_directorySound _ _ _ _ rfl rfl, by decide, by decide, by decide, rfl,
    fun _ h => absurd h (Nat.not_lt_zero _), by decide, by decide⟩, by decide⟩

theorem test_witness_CreateLaneRefusesInOrder :
    (∀ c ∈ [creation 0 0 1, creation 1 4 1, creation 1 0 8], Takes .supervision (.createLane c) morning ∧
      (c.store = 0 ∨ 3 < c.slot ∨ 7 < c.type)) ∧
    (Takes .supervision (.createLane (creation 431 1 1)) morning ∧
      ((siteSlots 431 morning.store.directory).bind fun x => x.get 1) ≠ none) ∧
    (Takes .supervision (.createLane (creation 431 0 0)) morning ∧ (morning.policies.get 0).policy = none ∧
      ((siteSlots 431 morning.store.directory).bind fun x => x.get 0) = none) ∧
    ((morning.policies.get 1).policy ≠ none ∧
      lotInState 1 .current ({ morning with lots := ⟨[], 0⟩ } : State).lots.entries = none) := by decide

theorem test_witness_CreateLaneRefusesWhenFull :
    (Takes .supervision (.createLane (creation 1 0 1)) (occupied 1536) ∧ PoolSound (occupied 1536) ∧
      siteSlots 1 (occupied 1536).store.directory = none ∧
      ((occupied 1536).policies.get 1).policy = some paper ∧
      lotInState 1 .current (occupied 1536).lots.entries = some 61840 ∧
      ∀ m, m < 1536 → (occupied 1536).lane m ≠ none) ∧
    (Takes .supervision (.createLane (creation 513 0 1)) (directoryOf 512) ∧ PoolSound (directoryOf 512) ∧
      (directoryOf 512).lane 0 = none ∧ siteSlots 513 (directoryOf 512).store.directory = none ∧
      512 ≤ (directoryOf 512).store.directory.length) :=
  ⟨⟨occupied_takes _ _ rfl, occupied_sound _ (Nat.le_refl _), rfl, rfl, rfl, fun _ h => occupied_lane h⟩,
    directoryOf_takes _ _ rfl, directoryOf_sound _, rfl, directoryOf_slots 512,
    Nat.le_of_eq (directoryOf_length 512).symm⟩

theorem test_witness_NewStoresTakeTheirPosition :
    (∃ t n l, exec (.createLane (creation 87 0 1)) morning = .next t ∧
      t.framer .supervision = .replyHeld (.done (.laneRecord n l)) ∧
      searchSites 87 morning.store.directory = .notFound 0) ∧
    (∃ t n l, exec (.createLane (creation 530 3 1)) morning = .next t ∧
      t.framer .supervision = .replyHeld (.done (.laneRecord n l)) ∧
      searchSites 530 morning.store.directory = .notFound 1) ∧
    (∃ t n l, exec (.createLane (creation 431 3 1)) morning = .next t ∧
      t.framer .supervision = .replyHeld (.done (.laneRecord n l)) ∧
      searchSites 431 morning.store.directory = .found 0) :=
  ⟨⟨_, _, _, rfl, rfl, rfl⟩, ⟨_, _, _, rfl, rfl, rfl⟩, ⟨_, _, _, rfl, rfl, rfl⟩⟩

/-- Lane 57 named by its slot, and by its number. -/
def bySlot : LaneName := .bySlot 431 1

/-- The offsets of lane 57 with one of them changed. -/
def newOffsets : Points Int := { lane57.offsets with b := ⟨0, 0, 0, 501⟩ }

theorem test_witness_EditLaneWritesItsParts :
    (Takes .supervision (.editLane bySlot ⟨none, none, none, none⟩) (withLane { lane57 with locked := true }) ∧
      (withLane { lane57 with locked := true }).named bySlot = .lane 57 { lane57 with locked := true }) ∧
    (Takes .supervision (.editLane bySlot ⟨some lane57.offsets, none, none, none⟩) morning ∧
      morning.named bySlot = .lane 57 lane57 ∧ storedOffsets lane57.offsets = lane57.offsets) ∧
    (Takes .supervision (.editLane bySlot ⟨some newOffsets, none, none, none⟩) morning ∧
      storedOffsets newOffsets ≠ lane57.offsets ∧ lane57.state ≠ .held) :=
  ⟨⟨by decide, rfl⟩, ⟨by decide, rfl, by decide⟩, by decide, by decide, by decide⟩

/-- Lane 57 is named, by slot and by number, and each request that names it is taken: the hypotheses of
`LockAndUnlockNeedTheSupervisor`, `RetireLaneRemovesTheLane`, `HoldReleaseAndRequalify` and of the first clause of
`LookupAndNextFindLanes`. -/
theorem test_witness_NamedLaneRequests :
    morning.named bySlot = .lane 57 lane57 ∧ morning.named (.byNumber 57) = .lane 57 lane57 ∧
    Takes .supervision (.lockLane bySlot) morning ∧ Takes .supervision (.unlockLane bySlot) morning ∧
    Takes .supervision (.retireLane bySlot) morning ∧ Takes .supervision (.lookupLane bySlot) morning ∧
    Takes .supervision (.holdLane bySlot) morning ∧ Takes .supervision (.releaseLane bySlot) morning ∧
    Takes .supervision (.requalifyLane bySlot) morning ∧ PoolSound morning ∧ DirectorySound morning ∧
    (withLane { lane57 with state := .held }).named bySlot = .lane 57 { lane57 with state := .held } ∧
    (withLane { lane57 with locked := true }).named bySlot = .lane 57 { lane57 with locked := true } :=
  ⟨rfl, rfl, by decide, by decide, by decide, by decide, by decide, by decide, by decide, desk_poolSound _ _ _ _,
    desk_directorySound _ _ _ _ rfl rfl, rfl, rfl⟩

/-- Lane 57 on the Attention List. -/
def laneListed : Lane := { lane57 with causes := Causes.empty.add .watch, joined := some ⟨2301, 390⟩ }

/-- The small state with lane 57 alone on the list. -/
def listed (mode : AttnMode) (owed : Nat) (pulse : Bool) : State :=
  { withLane laneListed with attention := ⟨[57], 1, mode, owed, pulse⟩ }

theorem listed_listSound : ListSound (listed .level 0 false) where
  once := List.nodup_singleton 57
  length := rfl
  listed := fun n => by
    constructor
    · intro h
      rw [List.mem_singleton.mp h]
      exact ⟨laneListed, rfl, by decide⟩
    · rintro ⟨l, hl, -⟩
      rw [(desk_lane_eq (cs := []) (f := .idle) (l := laneListed) (rep := reportOf 61840 2301 red2301) hl).1]
      exact List.mem_singleton.mpr rfl
  stamped := fun n l hl => by
    rw [(desk_lane_eq (cs := []) (f := .idle) (l := laneListed) (rep := reportOf 61840 2301 red2301) hl).2]
    decide
  owed := Nat.zero_le _
  level := fun _ => rfl
  pulse := nofun

theorem test_witness_RetireSiteTreatsEverySlot :
    Takes .supervision (.retireSite 0) morning ∧
    (Takes .supervision (.retireSite 430) morning ∧ siteSlots 430 morning.store.directory = none) ∧
    (Takes .supervision (.retireSite 431) morning ∧
      siteSlots 431 morning.store.directory = some ⟨none, some 57, none, none⟩ ∧ PoolSound morning ∧
      DirectorySound morning) ∧
    (Takes .supervision (.retireSite 431) (listed .level 0 false) ∧ PoolSound (listed .level 0 false) ∧
      siteSlots 431 (listed .level 0 false).store.directory = some ⟨none, some 57, none, none⟩ ∧
      DirectorySound (listed .level 0 false) ∧ ListSound (listed .level 0 false)) :=
  have h := desk_directorySound [] .idle laneListed (reportOf 61840 2301 red2301) rfl rfl
  ⟨by decide, by decide, ⟨by decide, by decide, desk_poolSound _ _ _ _, desk_directorySound _ _ _ _ rfl rfl⟩,
    by decide, ⟨List.pairwise_singleton .., fun e he => by rw [List.mem_singleton.mp he]; show 57 < 1536; decide, rfl⟩,
    by decide, ⟨h.ascending, h.count, h.capacity, h.occupied, h.names, h.named⟩, listed_listSound⟩

theorem test_witness_NextLane :
    Takes .supervision (.nextLane (some 1536)) morning ∧ PoolSound morning ∧
    (Takes .supervision (.nextLane (some 1535)) morning ∧ ∀ m, 1535 < m → morning.lane m = none) ∧
    (Takes .supervision (.nextLane (some 57)) morning ∧ ∀ m, 57 < m → morning.lane m = none) ∧
    (Takes .supervision (.nextLane (some 56)) morning ∧ morning.lane 57 = some lane57 ∧
      ∀ m, 56 < m → m < 57 → morning.lane m = none) ∧
    (Takes .supervision (.nextLane none) morning ∧ ∀ m, m < 57 → morning.lane m = none) := by
  have ne : ∀ m, m ≠ 57 → morning.lane m = none := fun m h => by
    rw [morning, desk_lane, if_neg (Ne.symm h)]
  exact ⟨by decide, desk_poolSound _ _ _ _, ⟨by decide, fun m h => ne m (by omega)⟩,
    ⟨by decide, fun m h => ne m (by omega)⟩, ⟨by decide, rfl, fun m h₁ h₂ => by omega⟩,
    by decide, fun m h => ne m (by omega)⟩

theorem test_witness_UnnamedLanesAreRefused :
    (∀ name ∈ [LaneName.bySlot 0 0, .bySlot 1 4, .bySlot 431 3, .bySlot 65535 0, .byNumber 1536, .byNumber 1535],
      laneNameOf (.holdLane name) = some name ∧
      (Instr.holdLane name).request = some (.supervision, .holdLane name) ∧
      Takes .supervision (.holdLane name) morning) ∧
    (morning.laneAt 431 3).isNone = true ∧ (morning.laneAt 65535 0).isNone = true ∧
    (morning.lane 1535).isNone = true := by decide

/-! #### Requests of the other blocks -/

theorem test_witness_PolicyRequestsReadAndWrite :
    (Takes .supervision (.setPolicy 8 paper) morning ∧ Takes .supervision (.setPolicy 7 paper) morning) ∧
    (Takes .supervision (.setPolicyUndefine 8) morning ∧ Takes .supervision (.setPolicyUndefine 1) morning ∧
      (morning.policies.get 1).laneCount ≠ 0 ∧ Takes .supervision (.setPolicyUndefine 7) morning ∧
      (morning.policies.get 7).laneCount = 0) ∧
    (Takes .supervision (.readPolicy 8) morning ∧ Takes .supervision (.readPolicy 7) morning ∧
      (morning.policies.get 7).policy = none ∧ (morning.policies.get 1).policy = some paper) := by decide

/-- The Lot Table with `k` entries. -/
def lotsOf (k : Nat) : State := { morning with lots := ⟨upTo k ⟨1, .announced, references, 0, 2205⟩, k⟩ }

/-- Lot 41022 in a state, with a user count. -/
def lotIn (st : LotState) (users : Nat) : State :=
  { morning with lots := ⟨[(41022, ⟨1, st, references, users, 2205⟩)], 1⟩ }

theorem test_witness_LotsAreAnnouncedReadAndDeleted :
    (Takes .supervision (.announceLot 0 1 references) morning ∧ Takes .supervision (.announceLot 5 8 references) morning ∧
      Takes .supervision (.announceLot 41022 1 references) morning ∧
      Table.find 41022 morning.lots.entries ≠ none) ∧
    (Takes .supervision (.announceLot 5 0 references) morning ∧ Table.find 5 morning.lots.entries = none ∧
      (morning.policies.get 0).policy = none ∧ (morning.policies.get 1).policy ≠ none) ∧
    (32 ≤ (lotsOf 32).lots.entries.length ∧ Table.find 32 (lotsOf 32).lots.entries = none ∧
      (lotsOf 31).lots.entries.length < 32 ∧ Table.find 32 (lotsOf 31).lots.entries = none) ∧
    (Takes .supervision (.deleteLot 0) morning ∧ Takes .supervision (.deleteLot 41023) morning ∧
      Table.find 41023 morning.lots.entries = none) ∧
    ([(lotIn .rolling 0), (lotIn .current 0), (lotIn .announced 1), (lotIn .announced 0), (lotIn .superseded 1),
      (lotIn .superseded 0)].map fun s => (Table.find 41022 s.lots.entries).map fun e => (e.state, e.users)) =
      [some (.rolling, 0), some (.current, 0), some (.announced, 1), some (.announced, 0), some (.superseded, 1),
        some (.superseded, 0)] := by decide

theorem test_witness_ReadLot :
    Takes .supervision (.readLot 0) morning ∧ Takes .supervision (.readLot 41023) morning ∧
    (Takes .supervision (.readLot 41022) morning ∧
      Table.find 41022 morning.lots.entries = some ⟨1, .announced, references, 0, 2205⟩) ∧
    (Takes .supervision (.readLotFollowing 61840) morning ∧ Table.wf morning.lots.entries ∧
      ∀ m, 61840 < m → Table.find m morning.lots.entries = none) ∧
    (Takes .supervision (.readLotFollowing 0) morning ∧
      Table.find 41022 morning.lots.entries = some ⟨1, .announced, references, 0, 2205⟩ ∧
      ∀ m, 0 < m → m < 41022 → Table.find m morning.lots.entries = none) := by
  have ne : ∀ m, m ≠ 41022 → m ≠ 61840 → Table.find m morning.lots.entries = none := fun m h₁ h₂ => by
    cases h : Table.find m morning.lots.entries with
    | none => rfl
    | some e => rcases desk_lot (show Table.find m (desk _ _ _ _).lots.entries = some e from h) with ⟨h, -⟩ | ⟨h, -⟩
                · exact absurd h h₁
                · exact absurd h h₂
  exact ⟨by decide, by decide, ⟨by decide, rfl⟩, ⟨by decide, by decide, fun m h => ne m (by omega) (by omega)⟩,
    by decide, rfl, fun m _ h => ne m (by omega) (by omega)⟩

/-- The small state at a minute of a day. -/
def clockAt (day minute : Nat) (running : Bool) : State := { morning with clock := ⟨day, minute, 1, running, 720⟩ }

theorem test_witness_MinuteTicksMoveTheClock :
    (¬Awake (atPort .idle false false) ∧ (clockAt 1 1 false).clock.running = false) ∧
    (Awake (clockAt 65535 1439 true) ∧ (clockAt 65535 1439 true).clock.running = true) ∧
    (clockAt 65534 1439 true).clock.day ≠ 65535 ∧ (clockAt 65535 1438 true).clock.minute ≠ 1439 ∧
    (clockAt 1 719 true).clock.minute + 1 = (clockAt 1 719 true).clock.deadline ∧
    morning.sweeps.engine = .idle ∧
    (sweeping ⟨.periodClose, .request, 0, 0⟩ false).sweeps.engine = .running ⟨.periodClose, .request, 0, 0⟩ := by decide

theorem test_witness_ClockRequests :
    (Takes .supervision (.setClock 0 1440 7) (clockAt 1 1 true) ∧ (clockAt 1 1 true).clock.running = true) ∧
    (Takes .supervision (.setClock 65535 1440 7) (clockAt 1 1 false) ∧ (clockAt 1 1 false).clock.running = false) ∧
    Takes .supervision .startClock morning ∧ Takes .supervision .stopClock morning ∧
    Takes .supervision (.setDeadline 1440) morning ∧ Takes .supervision .readClock morning ∧
    (atPort .idle false false).lines.ready = false ∧ (atPort .idle false false).framer .supervision = .idle := by decide

theorem test_witness_SweepRequestsStartCancelAndReport :
    (Takes .supervision .startPeriodClose morning ∧ morning.sweeps.engine = .idle) ∧
    (∀ s ∈ [sweeping ⟨.periodClose, .request, 0, 0⟩ false, sweeping ⟨.overdue, .deadline, 1535, 1535⟩ false,
        sweeping ⟨.rollout 41022, .request, 3, 1⟩ true],
      s.sweeps.engine ≠ .idle ∧ Takes .supervision .startPeriodClose s ∧ Takes .supervision .startOverdue s ∧
      Takes .supervision (.startRollout 41022) s ∧ Takes .supervision .cancelSweep s) ∧
    (Takes .supervision (.startRollout 0) morning ∧ Takes .supervision (.startRollout 1) morning ∧
      Table.find 1 morning.lots.entries = none ∧ Takes .supervision (.startRollout 61840) morning ∧
      Takes .supervision (.startRollout 41022) morning) ∧
    Takes .supervision .startOverdue morning ∧ Takes .supervision .cancelSweep morning ∧
    Takes .supervision .sweepStatus morning := by decide

theorem test_witness_SweepsAdvanceAndComplete :
    (⟨.rollout 41022, .request, 1534, 3⟩ : Sweep).cursor < 1535 ∧
    (⟨.rollout 41022, .request, 1535, 3⟩ : Sweep).cursor = 1535 := by decide

theorem test_witness_PeriodCloseStepsCloseLanes :
    Awake (sweeping ⟨.periodClose, .request, 57, 0⟩ false) ∧
    (sweeping ⟨.periodClose, .request, 56, 0⟩ false).lane 56 = none ∧
    ((sweeping ⟨.periodClose, .request, 57, 0⟩ false).lane 57).map Lane.periodTag =
      some (sweeping ⟨.periodClose, .request, 57, 0⟩ false).sweeps.periodNumber ∧
    ((withLane { lane57 with periodTag := 65535 }).lane 57).map Lane.periodTag ≠ some morning.sweeps.periodNumber := by
  decide

theorem test_witness_RolloutStepsAssignTheLot :
    Awake (sweeping ⟨.rollout 41022, .request, 57, 0⟩ false) ∧
    Table.find 41022 (sweeping ⟨.rollout 41022, .request, 57, 0⟩ false).lots.entries =
      some ⟨1, .announced, references, 0, 2205⟩ ∧
    (sweeping ⟨.rollout 41022, .request, 0, 0⟩ false).lane 0 = none ∧
    (lane57.type = 1 ∧ lane57.activeLot ≠ 41022 ∧ lane57.pendingLot ≠ some 41022) ∧ lane57.activeLot = 61840 := by
  decide

theorem test_witness_OverdueStepsMarkLanes :
    Awake (sweeping ⟨.overdue, .deadline, 57, 0⟩ false) ∧
    (sweeping ⟨.overdue, .deadline, 1535, 0⟩ false).lane 1535 = none ∧
    (morning.policies.get lane57.type).policy = some paper ∧ lane57.state ≠ .held ∧
    missedStrips morning.clock lane57 < paper.overdueLimit ∧
    (paper.overdueLimit ≤ missedStrips ⟨2302, 720, 1, true, 720⟩ lane57 ∧ lane57.overdue = false) ∧
    missedStrips ⟨2302, 719, 1, true, 720⟩ lane57 < paper.overdueLimit := by decide

theorem test_witness_TakeNoticeTakesTheHead :
    (Takes .supervision .takeNotice morning ∧ morning.attention.order = []) ∧
    (Takes .supervision .takeNotice (listed .level 0 false) ∧ (listed .level 0 false).attention.order = [57] ∧
      (listed .level 0 false).lane 57 = some laneListed ∧ laneListed.joined = some ⟨2301, 390⟩) := by decide

theorem test_witness_RaisedCausesJoinOrMerge :
    PoolSound morning ∧ morning.lane 57 = some lane57 ∧ passes .empty .watch = false ∧
    (passes .empty .action = true ∧ lane57.causes = .empty) ∧
    ((listed .pulse 255 true).lane 57 = some laneListed ∧ laneListed.causes ≠ .empty ∧
      laneListed.causes.has .drift = false ∧ laneListed.causes.has .watch = true ∧
      passes paper.noticeMask .drift = true) :=
  ⟨desk_poolSound _ _ _ _, rfl, by decide⟩

theorem test_witness_AttentionLineFollowsItsMode :
    (Takes .supervision (.setAttentionMode 0) morning ∧ Takes .supervision (.setAttentionMode 1) morning) ∧
    (Awake (listed .pulse 1 false) ∧ (listed .pulse 1 false).attention.mode = .pulse ∧
      0 < (listed .pulse 1 false).attention.pulsesOwed) ∧
    (listed .pulse 1 true).attention.pulseInProgress = true ∧ morning.attention.pulseInProgress = false ∧
    (atPort .idle false false).lines.ready = false ∧
    (listed .level 0 false).attention.mode = .level := by decide

theorem test_witness_StatusIdentify :
    Takes .supervision .status morning ∧ Takes .supervision .identify morning := by decide

theorem test_witness_ClearingAndReset :
    (atPort .idle true false).lines.ready = true ∧ (atPort .idle false false).lines.ready = false ∧
    (atPort .idle true true).lines.resetAsserted = true ∧ morning.lines.resetAsserted = false ∧
    morning.sweeps.engine = .idle ∧
    (sweeping ⟨.rollout 41022, .request, 19, 2⟩ true).sweeps.engine = .running ⟨.rollout 41022, .request, 19, 2⟩ ∧
    (sweeping ⟨.periodClose, .request, 19, 2⟩ true).sweeps.engine = .running ⟨.periodClose, .request, 19, 2⟩ ∧
    (sweeping ⟨.overdue, .deadline, 19, 2⟩ false).sweeps.engine = .running ⟨.overdue, .deadline, 19, 2⟩ := by decide

/-- A sound state with a lane, a policy, lots and a waiting report, whose next step evaluates the report: the
hypotheses of the six statements of what every step keeps. -/
theorem test_witness_SoundStep : ∃ s t, Sound s ∧ step s = .next t :=
  ⟨_, _, desk_sound [.evaluation] .idle (reportOf 61840 2301 red2301) (by decide) (by simp), rfl⟩

theorem test_witness_SoundStatesOnlyStopOnImpossibleFrames : ∃ s f, Sound s ∧ step s = .fault f :=
  ⟨_, _, desk_sound [.requestFrameBegin .strip] .taking (reportOf 61840 2301 red2301) (by decide) (by simp), rfl⟩

end Sys2Proof.Tests
end

section
/-! The proofs of this family: where CREATE LANE names its lane in the Site Directory (R9). -/
namespace Sys2Proof.Machine

/-! ### The position of a store that is not found (R8) -/

/-- Whatever the order of the entries, the position of a store that is not found is inside the directory or at
its end, so inserting there does insert. -/
theorem searchSites_notFound_le {store k : Nat} {d : List Site} (h : searchSites store d = .notFound k) :
    k ≤ d.length := by
  induction d generalizing k with
  | nil => cases h; exact Nat.le_refl _
  | cons e d ih =>
    simp only [searchSites] at h
    split at h
    · cases h
    · split at h
      · cases h; exact Nat.zero_le _
      · cases hs : searchSites store d with
        | found m => rw [hs] at h; cases h
        | notFound m => rw [hs] at h; cases h; exact Nat.succ_le_succ (ih hs)

/-! ### Naming a slot, by the result of the search (R9) -/

/-- A new store takes the position it was not found at. -/
theorem nameSlot_of_notFound {store k : Nat} {d : List Site} (i : SlotNumber) (n : Nat)
    (h : searchSites store d = .notFound k) :
    nameSlot store i n d = (d.take k ++ ⟨store, Slots.vacant.put i (some n)⟩ :: d.drop k, true) := by
  obtain ⟨front, back, rfl, rfl, hinsert⟩ :=
    List.exists_of_modifyTailIdx (List.cons ⟨store, Slots.vacant.put i (some n)⟩) (searchSites_notFound_le h)
  simp only [nameSlot, h, List.insertIdx, hinsert, List.take_left, List.drop_left]

/-- A store of the directory keeps its entry, with the one slot named. -/
theorem nameSlot_of_found {store k : Nat} {d : List Site} {e : Site} (i : SlotNumber) (n : Nat)
    (h : searchSites store d = .found k) (he : d[k]? = some e) :
    nameSlot store i n d = (d.set k { e with slots := e.slots.put i (some n) }, false) := by
  simp only [nameSlot, h, List.modify_eq_set_getElem?, he, Option.map_eq_map, Option.map_some, Option.getD_some]

/-! ### The lane made in one event (R13) -/

@[simp] theorem State.addLane_directory (s : State) (n : Nat) (l : Lane) :
    (s.addLane n l).store.directory = (nameSlot l.store l.slot n s.store.directory).1 := rfl

@[simp] theorem State.addLane_siteCount (s : State) (n : Nat) (l : Lane) :
    (s.addLane n l).store.siteCount =
      if (nameSlot l.store l.slot n s.store.directory).2 then s.store.siteCount + 1 else s.store.siteCount := rfl

/-! ### What CREATE LANE can come to (R12) -/

theorem slotNumber_val (i : SlotNumber) : slotNumber i = some i := by
  simp [slotNumber]

/-- Everything the block of CREATE LANE can give: a code alone with nothing changed, or, with every check of R12
passed, the new lane of Table 1-2 at the lowest vacant place. -/
theorem createLaneBlock_cases (c : LaneCreation) (s : State) :
    (∃ code, createLaneBlock c s = answer s code) ∨
    (∃ slot type active, slotNumber c.slot = some slot ∧ processType c.type = some type ∧ c.store ≠ 0 ∧
      ((siteSlots c.store s.store.directory).bind fun x => x.get slot) = none ∧
      (s.policies.get type).policy ≠ none ∧ lotInState type .current s.lots.entries = some active ∧
      Table.vacant 0 s.store.pool < Config.poolPlaces ∧
      (siteSlots c.store s.store.directory = none → s.store.directory.length < Config.siteCapacity) ∧
      createLaneBlock c s =
        let n := Table.vacant 0 s.store.pool
        let l := newLane c slot type active (lotInState type .rolling s.lots.entries) s.clock.day
          s.sweeps.periodNumber
        answerDone (s.addLane n l) (.laneRecord n l)) := by
  unfold createLaneBlock
  split
  · rename_i slot type hslot htype
    dsimp only
    split
    · exact .inl ⟨.malformed, rfl⟩
    rename_i hstore
    split
    · exact .inl ⟨.laneExists, rfl⟩
    rename_i hempty
    split
    · exact .inl ⟨.noPolicy, rfl⟩
    rename_i hpolicy
    split
    · exact .inl ⟨.noCurrentLot, rfl⟩
    rename_i active hactive
    split
    · exact .inl ⟨.poolFull, rfl⟩
    rename_i hplace
    split
    · exact .inl ⟨.directoryFull, rfl⟩
    rename_i hroom
    refine .inr ⟨slot, type, active, hslot, htype, hstore, by simpa using hempty, by simpa using hpolicy, hactive,
      Nat.lt_of_not_le hplace, fun h => by simpa [h] using hroom, rfl⟩
  · exact .inl ⟨.malformed, rfl⟩

theorem exec_createLane (c : LaneCreation) (s : State) :
    exec (.createLane c) s = serve .supervision (.createLane c) (createLaneBlock c) s := rfl

/-- A CREATE LANE that is taken and answered DONE with a lane record made that lane at that place, in the named
store and slot. -/
theorem addLane_of_createLane_done {s t : State} {c : LaneCreation} {n : Nat} {l : Lane}
    (htakes : Takes .supervision (.createLane c) s) (hexec : exec (.createLane c) s = .next t)
    (hreply : t.framer .supervision = .replyHeld (.done (.laneRecord n l))) :
    t.store = (s.addLane n l).store ∧ l.store = c.store ∧ slotNumber c.slot = some l.slot := by
  rw [exec_createLane] at hexec
  rcases createLaneBlock_cases c s with ⟨code, hb⟩ | ⟨slot, type, active, hslot, -, -, -, -, -, -, -, hb⟩
  · rw [serve_takes_ok htakes hb] at hexec
    cases hexec
    simp at hreply
  · rw [serve_takes_ok htakes hb] at hexec
    cases hexec
    rw [State.hold_framer] at hreply
    cases hreply
    exact ⟨State.hold_store .., rfl, hslot⟩

/-- Settles O28: the search of R8 says which of the two cases of R9 the new lane's slot is named by. -/
theorem newStoresTakeTheirPosition : Obligations.NewStoresTakeTheirPosition := by
  intro s t c i n l htakes hi hexec hreply
  obtain ⟨hstore, hl, hslot⟩ := addLane_of_createLane_done htakes hexec hreply
  have hli : l.slot = i := by
    rw [hi, slotNumber_val] at hslot
    exact (Option.some.inj hslot).symm
  rw [hstore, State.addLane_directory, State.addLane_siteCount, hl, hli]
  constructor
  case left =>
    intro k hk
    rw [nameSlot_of_notFound i n hk]
    exact ⟨rfl, rfl⟩
  case right =>
    intro k hk
    obtain ⟨e, he, hes⟩ := searchSites_found hk
    rw [nameSlot_of_found i n hk he]
    exact ⟨e, he, hes, rfl, rfl⟩

end Sys2Proof.Machine
end

section
/-! The proofs of this family: the step of the trend filter (R93), and the range that every trend keeps (R94). -/
namespace Sys2Proof.Machine

/-! ### The step of the filter (R93) -/

theorem filterStep_neg (k : Nat) (d : Int) : filterStep k (-d) = -filterStep k d := by
  simp [filterStep]

theorem filterStep_natCast (k m : Nat) : filterStep k m = ((m + 2 ^ k / 2) / 2 ^ k : Nat) := by
  cases m with
  | zero =>
    have hhalf : (0 + 2 ^ k / 2) / 2 ^ k = 0 := Nat.div_eq_of_lt (by have := Nat.two_pow_pos k; omega)
    rw [hhalf]
    simp [filterStep]
  | succ m => rw [filterStep, Int.sign_natCast_of_ne_zero (Nat.succ_ne_zero m), Int.one_mul, Int.natAbs_natCast]

theorem filterStep_natAbs (k : Nat) (d : Int) :
    (filterStep k d).natAbs = (d.natAbs + 2 ^ k / 2) / 2 ^ k := by
  obtain ⟨m, rfl | rfl⟩ := d.eq_nat_or_neg
  · rw [filterStep_natCast, Int.natAbs_natCast, Int.natAbs_natCast]
  · rw [filterStep_neg, filterStep_natCast, Int.natAbs_neg, Int.natAbs_neg, Int.natAbs_natCast, Int.natAbs_natCast]

theorem filterStep_nonneg (k : Nat) {d : Int} (h : 0 ≤ d) : 0 ≤ filterStep k d := by
  lift d to Nat using h
  rw [filterStep_natCast]
  exact Int.natCast_nonneg _

theorem filterStep_nonpos (k : Nat) {d : Int} (h : d ≤ 0) : filterStep k d ≤ 0 := by
  have := filterStep_nonneg k (Int.neg_nonneg_of_nonpos h)
  rw [filterStep_neg] at this
  omega

theorem filterStep_zero (k : Nat) : filterStep k 0 = 0 :=
  Int.le_antisymm (filterStep_nonpos k (Int.le_refl 0)) (filterStep_nonneg k (Int.le_refl 0))

/-- The scaled step exceeds the difference by at most half of 2 to the k in magnitude, and falls short of it by less
than half: the nearest whole number, with a half going away from zero. -/
theorem filterStep_natAbs_nearest {k : Nat} (hk : 1 ≤ k) (d : Int) :
    2 * (2 ^ k * (filterStep k d).natAbs) ≤ 2 * d.natAbs + 2 ^ k ∧
    2 * d.natAbs < 2 * (2 ^ k * (filterStep k d).natAbs) + 2 ^ k := by
  have hhalf : 2 * (2 ^ k / 2) = 2 ^ k := Nat.mul_div_cancel' (dvd_pow_self 2 (by omega))
  have hle := Nat.mul_div_le (d.natAbs + 2 ^ k / 2) (2 ^ k)
  have hlt := Nat.lt_mul_div_succ (d.natAbs + 2 ^ k / 2) (Nat.two_pow_pos k)
  rw [← filterStep_natAbs] at hle hlt
  rw [Nat.mul_add] at hlt
  omega

theorem filterStep_nearest {k : Nat} (hk : 1 ≤ k) (d : Int) :
    2 * (2 ^ k * filterStep k d - d).natAbs ≤ 2 ^ k ∧
    (2 * (2 ^ k * filterStep k d - d).natAbs = 2 ^ k → d.natAbs < 2 ^ k * (filterStep k d).natAbs) := by
  obtain ⟨hle, hlt⟩ := filterStep_natAbs_nearest hk d
  have hscaled : (2 ^ k * filterStep k d).natAbs = 2 ^ k * (filterStep k d).natAbs := by
    rw [Int.natAbs_mul, Int.natAbs_pow]; rfl
  rw [← hscaled] at hle hlt ⊢
  have hpos : (0 : Int) ≤ 2 ^ k := by positivity
  rcases Int.le_total 0 d with h | h
  · have hsign := Int.mul_nonneg hpos (filterStep_nonneg k h)
    omega
  · have hsign := Int.mul_nonpos_of_nonneg_of_nonpos hpos (filterStep_nonpos k h)
    omega

/-- A step is never larger than the difference (R94). -/
theorem filterStep_natAbs_le {k : Nat} (hk : 1 ≤ k) (d : Int) : (filterStep k d).natAbs ≤ d.natAbs := by
  obtain ⟨hle, -⟩ := filterStep_natAbs_nearest hk d
  have hpos := Nat.two_pow_pos k
  have hscaled := Nat.le_mul_of_pos_left d.natAbs hpos
  by_contra hgt
  have hmul := Nat.mul_le_mul_left (2 ^ k) (Nat.lt_of_not_le hgt)
  rw [Nat.mul_succ] at hmul
  omega

/-! ### What a reading makes of a trend (R91 to R93) -/

theorem newTrend_seeded (k : Nat) (e d : Int) : newTrend k ⟨e, true⟩ d = e + filterStep k (16 * d - e) := rfl

theorem newTrend_of_seeded (k : Nat) {e : Trend} (d : Int) (h : e.seeded = true) :
    newTrend k e d = e.value + filterStep k (16 * d - e.value) := if_pos h

theorem newTrend_of_unseeded (k : Nat) {e : Trend} (d : Int) (h : e.seeded = false) : newTrend k e d = 16 * d :=
  if_neg (by simp [h])

theorem writePoints_trend_of_some {rs : Points (Option PointResult)} {l : Lane} {p : Point} {r : PointResult}
    (h : rs.pick p = some r) : (writePoints rs l).trend.pick p = ⟨r.trend, true⟩ := by
  simp [writePoints, h]

theorem writePoints_trend_of_none {rs : Points (Option PointResult)} {l : Lane} {p : Point}
    (h : rs.pick p = none) : (writePoints rs l).trend.pick p = l.trend.pick p := by
  simp [writePoints, h]

/-- Settles O19: the sign and the magnitude of the step give each clause of R93. -/
theorem filterStepsRoundToNearest : Obligations.FilterStepsRoundToNearest := by
  refine ⟨fun k d => ?magnitude, fun k d hk => ?nearest, ?table, newTrend_seeded, ?written⟩
  case magnitude => exact ⟨filterStep_natAbs k d, filterStep_nonneg k, filterStep_nonpos k, filterStep_zero k⟩
  case nearest =>
    obtain ⟨hdistance, hhalf⟩ := filterStep_nearest hk d
    exact ⟨hdistance, hhalf, filterStep_neg k d⟩
  case table => decide
  case written => exact fun rs l p r h => writePoints_trend_of_some h

/-! ### A new trend lies between its previous value and its target (R94) -/

theorem newTrend_between {k : Nat} (hk : 1 ≤ k) (e : Trend) (d : Int) :
    min e.value (16 * d) ≤ newTrend k e d ∧ newTrend k e d ≤ max e.value (16 * d) := by
  cases hs : e.seeded with
  | false => rw [newTrend_of_unseeded k d hs]; omega
  | true =>
    have hnonneg := filterStep_nonneg k (d := 16 * d - e.value)
    have hnonpos := filterStep_nonpos k (d := 16 * d - e.value)
    have hle := filterStep_natAbs_le hk (16 * d - e.value)
    rw [newTrend_of_seeded k d hs]
    omega

theorem newTrend_change_le {k : Nat} (hk : 1 ≤ k) (e : Trend) (d : Int) :
    (newTrend k e d - e.value).natAbs ≤ (16 * d - e.value).natAbs := by
  have := newTrend_between hk e d
  omega

/-! ### What a block and an event leave in the Lane Store

`Q` is any property of the Lane Store. A command is followed down to the store its block leaves, and a command that
writes no lane keeps every `Q`. -/

/-- Whenever the block answers, the Lane Store it leaves has the property. -/
def BlockLeaves (Q : LaneStore → Prop) (x : Taken) : Prop := ∀ t r, x = .ok (t, r) → Q t.store

/-- Whenever the event ends in a next state, the Lane Store it leaves has the property. -/
def EventLeaves (Q : LaneStore → Prop) (x : Host.Outcome State Fault Refusal) : Prop := ∀ t, x = .next t → Q t.store

section
variable {Q : LaneStore → Prop} {s : State}

@[simp] theorem blockLeaves_ok (t : State) (r : Reply) : BlockLeaves Q (.ok (t, r)) ↔ Q t.store :=
  ⟨fun h => h t r rfl, fun h _ _ e => by cases e; exact h⟩
@[simp] theorem blockLeaves_error (f : Fault) : BlockLeaves Q (.error f) :=
  fun _ _ e => by cases e
@[simp] theorem blockLeaves_answer (t : State) (c : ReplyCode) : BlockLeaves Q (answer t c) ↔ Q t.store :=
  blockLeaves_ok ..
@[simp] theorem blockLeaves_answerDone (t : State) (b : DoneBody) : BlockLeaves Q (answerDone t b) ↔ Q t.store :=
  blockLeaves_ok ..
@[simp] theorem eventLeaves_next (t : State) : EventLeaves Q (.next t) ↔ Q t.store :=
  ⟨fun h => h t rfl, fun h _ e => by cases e; exact h⟩
@[simp] theorem eventLeaves_fault (f : Fault) : EventLeaves Q (.fault f) :=
  fun _ e => by cases e

/-- A request command leaves what its block leaves (R173 to R175). -/
theorem eventLeaves_serve {p : Port} {r : Request} {block : State → Taken} (h : Q s.store)
    (hblock : BlockLeaves Q (block s)) : EventLeaves Q (serve p r block s) := by
  intro t ht
  rcases serve_next ht with rfl | ⟨code, rfl⟩ | ⟨-, u, reply, hb, rfl⟩
  · exact h
  · rwa [State.hold_store]
  · rw [State.hold_store]; exact hblock u reply hb

/-- A request that names a lane leaves what it does to the lane of that place (R11). -/
theorem blockLeaves_onLane {name : LaneName} {act : Nat → Lane → State → Taken} (h : Q s.store)
    (hact : ∀ n l, s.lane n = some l → BlockLeaves Q (act n l s)) : BlockLeaves Q (onLane name act s) := by
  rcases onLane_cases name act s with ⟨-, e⟩ | ⟨-, e⟩ | ⟨n, l, hn, e⟩ <;> rw [e]
  · exact (blockLeaves_ok ..).mpr h
  · exact (blockLeaves_ok ..).mpr h
  · exact hact n l (lane_of_named hn)

/-- A sweep step leaves what its work at the cursor leaves (R145). -/
theorem eventLeaves_onSweep {act : Sweep → Option (Host.Outcome State Fault Refusal)} (h : Q s.store)
    (hact : ∀ w o, act w = some o → EventLeaves Q o) : EventLeaves Q (onSweep act s) := by
  unfold onSweep
  split
  · simpa
  · rename_i w _
    split
    · cases hw : act w with
      | none => simpa
      | some o => exact hact w o hw
    · simpa

/-! ### The commands that leave the Lane Store as it stands -/

/-- The commands that can write a lane or clear the Lane Store. -/
def writesStore : Instr → Bool
  | .evaluation | .createLane _ | .editLane .. | .lockLane .. | .unlockLane .. | .retireLane .. | .retireSite ..
  | .holdLane _ | .releaseLane _ | .requalifyLane _ | .periodCloseStep | .rolloutStep | .overdueStep | .takeNotice
  | .powerOn | .clearingEnd => true
  | _ => false

@[simp] theorem State.askOverdue_store (s : State) : s.askOverdue.store = s.store := by
  unfold State.askOverdue; split <;> rfl
@[simp] theorem State.tick_store (s : State) : s.tick.store = s.store := by
  unfold State.tick; dsimp only; (repeat' split) <;> simp
@[simp] theorem State.breakSweep_store (s : State) : s.breakSweep.store = s.store := by
  unfold State.breakSweep; (repeat' split) <;> rfl

theorem eventLeaves_of_not_writesStore {c : Instr} (hc : writesStore c = false) (h : Q s.store) :
    EventLeaves Q (exec c s) := by
  cases c with
  | evaluation | createLane _ | editLane _ _ _ | lockLane _ _ | unlockLane _ _ | retireLane _ _ | retireSite _ _
  | holdLane _ | releaseLane _ | requalifyLane _ | periodCloseStep | rolloutStep | overdueStep | takeNotice
  | powerOn | clearingEnd => cases hc
  | requestFrameBegin p =>
    simp only [exec, execRequestFrameBegin]
    (repeat' split) <;> simp [h]
  | requestFrameEnd p bytes =>
    simp only [exec, execRequestFrameEnd]
    (repeat' split) <;> simp [h]
  | readFrame p began n =>
    simp only [exec, execReadFrame]
    (repeat' split) <;> simp [h]
  | submit r => exact eventLeaves_serve h (by unfold submitBlock; split <;> simpa)
  | collect => exact eventLeaves_serve h (by unfold collectBlock; split <;> simpa)
  | lookupLane x => exact eventLeaves_serve h (blockLeaves_onLane h fun n l _ => by simpa)
  | nextLane x => exact eventLeaves_serve h (by unfold nextLaneBlock; (repeat' split) <;> simpa)
  | setPolicy n body line =>
    exact eventLeaves_serve h (by unfold setPolicyBlock; (repeat' split) <;> simpa)
  | setPolicyUndefine n line =>
    exact eventLeaves_serve h (by unfold setPolicyUndefineBlock; (repeat' split) <;> simpa)
  | readPolicy n => exact eventLeaves_serve h (by unfold readPolicyBlock; (repeat' split) <;> simpa)
  | announceLot lot n refs =>
    exact eventLeaves_serve h (by unfold announceLotBlock; dsimp only; (repeat' split) <;> simpa)
  | readLot lot => exact eventLeaves_serve h (by unfold readLotBlock; (repeat' split) <;> simpa)
  | readLotFollowing lot => exact eventLeaves_serve h (by unfold readLotFollowingBlock; split <;> simpa)
  | deleteLot lot => exact eventLeaves_serve h (by unfold deleteLotBlock; (repeat' split) <;> simpa)
  | prove r => exact eventLeaves_serve h (by unfold proveBlock; dsimp only; (repeat' split) <;> simp [h])
  | setClock d m w =>
    exact eventLeaves_serve h (by unfold setClockBlock; split <;> simpa [writeClock])
  | startClock =>
    simp only [exec, execStartClock]
    exact eventLeaves_serve h (by simpa [writeClock])
  | stopClock =>
    simp only [exec, execStopClock]
    exact eventLeaves_serve h (by simpa [writeClock])
  | readClock =>
    simp only [exec, execReadClock]
    exact eventLeaves_serve h (by simpa)
  | setDeadline m =>
    simp only [exec, execSetDeadline]
    exact eventLeaves_serve h (by simpa [writeClock])
  | minuteTick => exact (eventLeaves_next _).mpr (by simpa)
  | dayRollover => exact (eventLeaves_next _).mpr (by simpa)
  | clockLastMomentStop => exact (eventLeaves_next _).mpr (by simpa)
  | deadlineTick => exact (eventLeaves_next _).mpr (by simpa)
  | startPeriodClose => exact eventLeaves_serve h (by unfold startPeriodCloseBlock; split <;> simpa)
  | startRollout lot => exact eventLeaves_serve h (by unfold startRolloutBlock; (repeat' split) <;> simpa)
  | startOverdue => exact eventLeaves_serve h (by unfold startOverdueBlock; split <;> simpa)
  | cancelSweep => exact eventLeaves_serve h (by unfold cancelSweepBlock; (repeat' split) <;> simpa)
  | sweepStatus =>
    simp only [exec, execSweepStatus]
    exact eventLeaves_serve h (by simpa [sweepStatusBlock])
  | setAttentionMode m => exact eventLeaves_serve h (by unfold setAttentionModeBlock; split <;> simpa)
  | attnPulseStart =>
    simp only [exec, execAttnPulseStart]
    split <;> simpa
  | attnPulseEnd =>
    simp only [exec, execAttnPulseEnd]
    split <;> simpa
  | status line =>
    simp only [exec, execStatus]
    exact eventLeaves_serve h (by simpa)
  | identify =>
    simp only [exec, execIdentify]
    exact eventLeaves_serve h (by simpa)
  | warmReset =>
    simp only [exec, execWarmReset]
    split <;> simpa
  | resetRelease => exact (eventLeaves_next _).mpr h

end

/-! ### The range of a lane's trends (R90, R94) -/

/-- Every trend of the lane lies within ±16000 tu. -/
def Lane.TrendsInRange (l : Lane) : Prop :=
  ∀ p, -16000 ≤ (l.trend.pick p).value ∧ (l.trend.pick p).value ≤ 16000

/-- Every trend of every lane of the store does. -/
def TrendsInRange (store : LaneStore) : Prop := ∀ e ∈ store.pool, e.2.TrendsInRange

theorem Lane.TrendsInRange.of_trend_eq {l l' : Lane} (h : l.TrendsInRange) (heq : l'.trend = l.trend) :
    l'.TrendsInRange := by
  unfold Lane.TrendsInRange at h ⊢
  rwa [heq]

/-- Trends of 0 with the seeded mark clear, as a new lane and a resettled one have them (Table 1-2, R125). -/
theorem Lane.trendsInRange_of_cleared {l : Lane} (h : l.trend = Points.all ⟨0, false⟩) : l.TrendsInRange := by
  intro p
  rw [h, pick_all]
  decide

theorem Lane.trendsInRange_resettle (l : Lane) : l.resettle.TrendsInRange := Lane.trendsInRange_of_cleared rfl

theorem newTrend_in_range {k : Nat} (hk : 1 ≤ k) {e : Trend} {d : Int} (he : -16000 ≤ e.value ∧ e.value ≤ 16000)
    (hd : -1000 ≤ d ∧ d ≤ 1000) : -16000 ≤ newTrend k e d ∧ newTrend k e d ≤ 16000 := by
  have := newTrend_between hk e d
  omega

/-! ### The range through the operations that write lanes -/

section
variable {s : State}

theorem TrendsInRange.lane {n : Nat} {l : Lane} (h : TrendsInRange s.store) (hl : s.lane n = some l) :
    l.TrendsInRange := h _ (Table.mem_of_find hl)

theorem TrendsInRange.putLane (h : TrendsInRange s.store) (n : Nat) {l : Lane} (hl : l.TrendsInRange) :
    TrendsInRange (s.putLane n l).store := by
  intro e he
  rcases Table.mem_put he with rfl | he
  · exact hl
  · exact h e he

/-- A lane of the pool written with the trends it had. -/
theorem TrendsInRange.putLane_of_trend_eq {n : Nat} {l l' : Lane} (h : TrendsInRange s.store)
    (hl : s.lane n = some l) (heq : l'.trend = l.trend) : TrendsInRange (s.putLane n l').store :=
  h.putLane n ((h.lane hl).of_trend_eq heq)

theorem TrendsInRange.raise (h : TrendsInRange s.store) (mask : Causes) (n : Nat) (c : Cause) :
    TrendsInRange (s.raise mask n c).store := by
  rcases raise_cases s mask n c with e | ⟨l, hl, -, e⟩ | ⟨l, hl, -, e⟩ <;> rw [e]
  · exact h
  · exact h.putLane_of_trend_eq hl rfl
  · exact h.putLane_of_trend_eq hl rfl

theorem TrendsInRange.raiseAll (h : TrendsInRange s.store) (mask : Causes) (n : Nat) (cs : List Cause) :
    TrendsInRange (s.raiseAll mask n cs).store :=
  raiseAll_induction (motive := fun t => TrendsInRange t.store) mask n (fun _ c ht => ht.raise mask n c) cs s h

theorem TrendsInRange.retire (h : TrendsInRange s.store) (n : Nat) (l : Lane) :
    TrendsInRange (s.retire n l).1.store :=
  fun e he => h e ((Table.drop_sublist n s.store.pool).subset he)

theorem TrendsInRange.retireSlot (h : TrendsInRange s.store) (lane : Option Nat) :
    TrendsInRange (retireSlot s lane).1.store := by
  unfold Machine.retireSlot
  split
  · exact h
  · split
    · exact h
    · exact h.retire _ _

theorem TrendsInRange.addLane (h : TrendsInRange s.store) (n : Nat) {l : Lane} (hl : l.TrendsInRange) :
    TrendsInRange (s.addLane n l).store := by
  intro e he
  rcases Table.mem_put he with rfl | he
  · exact hl
  · exact h e he

/-! ### The blocks that write lanes -/

theorem createLaneBlock_trendsInRange (c : LaneCreation) (h : TrendsInRange s.store) :
    BlockLeaves TrendsInRange (createLaneBlock c s) := by
  rcases createLaneBlock_cases c s with ⟨code, e⟩ | ⟨slot, type, active, -, -, -, -, -, -, -, -, e⟩ <;> rw [e]
  · exact (blockLeaves_answer ..).mpr h
  · exact (blockLeaves_answerDone ..).mpr (h.addLane _ (Lane.trendsInRange_of_cleared rfl))

/-- An edit keeps the trends or, when a stored offset changes, clears them (R15, R16). -/
theorem editLaneOf_trend (e : LaneEdit) (l : Lane) :
    (editLaneOf e l).trend = l.trend ∨ (editLaneOf e l).trend = Points.all ⟨0, false⟩ := by
  unfold editLaneOf
  dsimp only
  split
  · exact .inl rfl
  · exact .inr rfl

theorem editLaneBlock_trendsInRange (name : LaneName) (e : LaneEdit) (h : TrendsInRange s.store) :
    BlockLeaves TrendsInRange (editLaneBlock name e s) := by
  refine blockLeaves_onLane h fun n l hl => ?_
  split
  · exact (blockLeaves_answer ..).mpr h
  · refine (blockLeaves_answerDone ..).mpr ?_
    rcases editLaneOf_trend e l with heq | heq
    · exact h.putLane_of_trend_eq hl heq
    · exact h.putLane n (Lane.trendsInRange_of_cleared heq)

theorem writeLock_trendsInRange (mark : Bool) (name : LaneName) (h : TrendsInRange s.store) :
    BlockLeaves TrendsInRange (writeLock mark name s) := by
  refine blockLeaves_onLane h fun n l hl => ?_
  split
  · exact (blockLeaves_answer ..).mpr h
  · exact (blockLeaves_answerDone ..).mpr (h.putLane_of_trend_eq hl rfl)

theorem retireLaneBlock_trendsInRange (name : LaneName) (h : TrendsInRange s.store) :
    BlockLeaves TrendsInRange (retireLaneBlock name s) := by
  refine blockLeaves_onLane h fun n l _ => ?_
  split
  · exact (blockLeaves_answer ..).mpr h
  · exact (blockLeaves_answerDone ..).mpr (h.retire n l)

theorem retireSiteBlock_trendsInRange (store : Nat) (h : TrendsInRange s.store) :
    BlockLeaves TrendsInRange (retireSiteBlock store s) := by
  unfold retireSiteBlock
  split
  · exact (blockLeaves_answer ..).mpr h
  · split
    · exact (blockLeaves_answer ..).mpr h
    · rename_i x _
      exact (blockLeaves_answerDone ..).mpr
        ((((h.retireSlot x.s0).retireSlot x.s1).retireSlot x.s2).retireSlot x.s3)

theorem holdLaneBlock_trendsInRange (name : LaneName) (h : TrendsInRange s.store) :
    BlockLeaves TrendsInRange (holdLaneBlock name s) :=
  blockLeaves_onLane h fun _ _ hl => (blockLeaves_answerDone ..).mpr (h.putLane_of_trend_eq hl rfl)

theorem releaseLaneBlock_trendsInRange (name : LaneName) (h : TrendsInRange s.store) :
    BlockLeaves TrendsInRange (releaseLaneBlock name s) := by
  refine blockLeaves_onLane h fun n l _ => ?_
  split
  · exact (blockLeaves_answerDone ..).mpr (h.putLane n l.trendsInRange_resettle)
  · exact (blockLeaves_answer ..).mpr h

theorem requalifyLaneBlock_trendsInRange (name : LaneName) (h : TrendsInRange s.store) :
    BlockLeaves TrendsInRange (requalifyLaneBlock name s) := by
  refine blockLeaves_onLane h fun n l _ => ?_
  split
  · exact (blockLeaves_answer ..).mpr h
  · exact (blockLeaves_answerDone ..).mpr (h.putLane n l.trendsInRange_resettle)

theorem takeNoticeBlock_trendsInRange (h : TrendsInRange s.store) : BlockLeaves TrendsInRange (takeNoticeBlock s) := by
  unfold takeNoticeBlock
  split
  · exact (blockLeaves_answer ..).mpr h
  · split
    · exact blockLeaves_error _
    · rename_i l hl
      split
      · exact blockLeaves_error _
      · exact (blockLeaves_answerDone ..).mpr (h.putLane_of_trend_eq hl rfl)

/-! ### The sweep steps (R149, R152, R140) -/

theorem periodCloseAt_trendsInRange (n : Nat) (h : TrendsInRange s.store) :
    TrendsInRange (periodCloseAt n s).1.store := by
  unfold periodCloseAt
  split
  · exact h
  · rename_i l hl
    split
    · exact h
    · exact h.putLane_of_trend_eq hl rfl

theorem rolloutAt_trendsInRange (lot : Nat) (type : ProcessType) (n : Nat) (h : TrendsInRange s.store) :
    TrendsInRange (rolloutAt lot type n s).1.store := by
  unfold rolloutAt
  split
  · exact h
  · rename_i l hl
    split
    · exact h
    · exact TrendsInRange.putLane_of_trend_eq (s := s.withLots _) h hl rfl

theorem overdueAt_trendsInRange {n : Nat} {t : State} {worked : Bool} (h : TrendsInRange s.store)
    (ht : overdueAt n s = .ok (t, worked)) : TrendsInRange t.store := by
  unfold overdueAt at ht
  split at ht
  · cases ht; exact h
  · rename_i l hl
    split at ht
    · cases ht; exact h
    · split at ht
      · cases ht
      · split at ht
        · cases ht; exact h
        · cases ht
          refine TrendsInRange.raise ?_ _ _ _
          exact h.putLane_of_trend_eq hl rfl

theorem execPeriodCloseStep_trendsInRange (h : TrendsInRange s.store) :
    EventLeaves TrendsInRange (execPeriodCloseStep s) := by
  refine eventLeaves_onSweep h fun w o ho => ?_
  split at ho <;> cases ho
  simpa using periodCloseAt_trendsInRange w.cursor h

theorem execRolloutStep_trendsInRange (h : TrendsInRange s.store) : EventLeaves TrendsInRange (execRolloutStep s) := by
  refine eventLeaves_onSweep h fun w o ho => ?_
  split at ho
  · split at ho <;> cases ho
    · exact eventLeaves_fault _
    · simpa using rolloutAt_trendsInRange _ _ w.cursor h
  all_goals cases ho

theorem execOverdueStep_trendsInRange (h : TrendsInRange s.store) : EventLeaves TrendsInRange (execOverdueStep s) := by
  refine eventLeaves_onSweep h fun w o ho => ?_
  split at ho
  · split at ho <;> cases ho
    · rename_i hat
      simpa using overdueAt_trendsInRange h hat
    · exact eventLeaves_fault _
  all_goals cases ho

/-! ### The evaluation (R67, R91 to R94) -/

/-- Everything a judgement can leave in the lane: a refusal counted, on the lane or on the lane crossed over, or the
reading written (R67). -/
theorem judge_cases {lots : Table Lot} {pol : Policy} {today : Nat} {l : Lane} {rep : Report} {j : Judgement}
    (h : judge lots pol today l rep = .ok j) :
    j.lane = countRefusal l ∨ (∃ c, j.lane = countRefusal (crossLane c rep.lot l)) ∨
      ∃ c references, j = judgeAccepted pol references c (crossLane c rep.lot l) rep := by
  unfold judge at h
  split at h
  · cases h; exact .inl rfl
  · dsimp only at h
    split at h
    · cases h; exact .inl rfl
    · split at h
      · cases h; exact .inr (.inl ⟨_, rfl⟩)
      · split at h <;> cases h
        exact .inr (.inr ⟨_, _, rfl⟩)

/-- An evaluated point's new trend is the filter's on the point's clamped deviation; the others keep theirs. -/
theorem judgeAccepted_trend_pick (pol : Policy) (references : Patches Nat) (c : LotCase) (l : Lane) (rep : Report)
    (p : Point) :
    (judgeAccepted pol references c l rep).lane.trend.pick p = l.trend.pick p ∨
      ∃ d, -1000 ≤ d ∧ d ≤ 1000 ∧ (judgeAccepted pol references c l rep).lane.trend.pick p =
        ⟨newTrend pol.filterShift (l.trend.pick p) d, true⟩ := by
  have hwritten : (judgeAccepted pol references c l rep).lane.trend.pick p =
      (writePoints (results pol l references rep) l).trend.pick p := rfl
  rw [hwritten]
  have hresult := results_pick pol l references rep p
  cases hv : evaluable pol rep p with
  | none =>
    rw [hv] at hresult
    exact .inl (writePoints_trend_of_none hresult)
  | some v =>
    rw [hv] at hresult
    obtain ⟨hlow, hhigh⟩ := clamp_mem (low := -1000) (high := 1000) (x := v - aim references l.offsets p) (by decide)
    exact .inr ⟨_, hlow, hhigh, writePoints_trend_of_some hresult⟩

theorem judge_trendsInRange {lots : Table Lot} {pol : Policy} {today : Nat} {l : Lane} {rep : Report} {j : Judgement}
    (hk : 1 ≤ pol.filterShift) (hl : l.TrendsInRange) (h : judge lots pol today l rep = .ok j) :
    j.lane.TrendsInRange := by
  rcases judge_cases h with e | ⟨c, e⟩ | ⟨c, references, rfl⟩
  · rw [e]; exact hl.of_trend_eq rfl
  · rw [e]; exact hl.of_trend_eq (crossLane_trend ..)
  · intro p
    rcases judgeAccepted_trend_pick pol references c (crossLane c rep.lot l) rep p with e | ⟨d, hlow, hhigh, e⟩
    · rw [e, crossLane_trend]; exact hl p
    · rw [e, crossLane_trend]; exact newTrend_in_range hk (hl p) ⟨hlow, hhigh⟩

theorem commitJudgement_trendsInRange {j : Judgement} (n : Nat) (before : Lane) (mask : Causes) (lot : Nat)
    (h : TrendsInRange s.store) (hj : j.lane.TrendsInRange) :
    TrendsInRange (commitJudgement s n before mask lot j).store := by
  refine TrendsInRange.raiseAll ?_ mask n j.causes
  exact TrendsInRange.putLane (s := s.withLots _) h n hj

theorem evaluateReport_trendsInRange {q : QueuedReport} {t : State}
    (hk : ∀ type pol, (s.policies.get type).policy = some pol → 1 ≤ pol.filterShift) (h : TrendsInRange s.store)
    (ht : evaluateReport q s = .ok t) : TrendsInRange t.store := by
  unfold evaluateReport at ht
  dsimp only at ht
  split at ht
  · cases ht; exact h
  · rename_i n l hl
    split at ht
    · cases ht
    · rename_i pol hpol
      split at ht <;> cases ht
      rename_i j hj
      have hlane := judge_trendsInRange (hk _ _ hpol) (h.lane (lane_of_laneAt hl)) hj
      exact commitJudgement_trendsInRange n l pol.noticeMask q.report.lot h hlane

theorem execEvaluation_trendsInRange (hk : ∀ type pol, (s.policies.get type).policy = some pol → 1 ≤ pol.filterShift)
    (h : TrendsInRange s.store) : EventLeaves TrendsInRange (execEvaluation s) := by
  unfold execEvaluation
  split
  · split
    · exact (eventLeaves_next _).mpr h
    · split
      · rename_i rest _ _ _ ht
        exact (eventLeaves_next _).mpr
          (evaluateReport_trendsInRange (s := { s with queues := { s.queues with intake := rest } }) hk h ht)
      · exact eventLeaves_fault _
  · exact (eventLeaves_next _).mpr h

/-! ### Every command and every step (R94) -/

/-- The Lane Store of power-on clearing holds no lane (R24). -/
theorem trendsInRange_reset : TrendsInRange State.reset.store := fun _ he => nomatch he

theorem exec_trendsInRange (c : Instr)
    (hk : ∀ type pol, (s.policies.get type).policy = some pol → 1 ≤ pol.filterShift) (h : TrendsInRange s.store) :
    EventLeaves TrendsInRange (exec c s) := by
  cases hc : writesStore c with
  | false => exact eventLeaves_of_not_writesStore hc h
  | true =>
    cases c with
    | evaluation => exact execEvaluation_trendsInRange hk h
    | createLane c => exact eventLeaves_serve h (createLaneBlock_trendsInRange c h)
    | editLane name e line => exact eventLeaves_serve h (editLaneBlock_trendsInRange (s := s.drive line) name e h)
    | lockLane name line => exact eventLeaves_serve h (writeLock_trendsInRange (s := s.drive line) true name h)
    | unlockLane name line => exact eventLeaves_serve h (writeLock_trendsInRange (s := s.drive line) false name h)
    | retireLane name line => exact eventLeaves_serve h (retireLaneBlock_trendsInRange (s := s.drive line) name h)
    | retireSite store line => exact eventLeaves_serve h (retireSiteBlock_trendsInRange (s := s.drive line) store h)
    | holdLane name => exact eventLeaves_serve h (holdLaneBlock_trendsInRange name h)
    | releaseLane name => exact eventLeaves_serve h (releaseLaneBlock_trendsInRange name h)
    | requalifyLane name => exact eventLeaves_serve h (requalifyLaneBlock_trendsInRange name h)
    | periodCloseStep => exact execPeriodCloseStep_trendsInRange h
    | rolloutStep => exact execRolloutStep_trendsInRange h
    | overdueStep => exact execOverdueStep_trendsInRange h
    | takeNotice => exact eventLeaves_serve h (takeNoticeBlock_trendsInRange h)
    | powerOn => exact (eventLeaves_next _).mpr trendsInRange_reset
    | clearingEnd =>
      simp only [exec, execClearingEnd]
      split
      · exact (eventLeaves_next _).mpr h
      · exact (eventLeaves_next _).mpr trendsInRange_reset
    | _ => cases hc

end

theorem Sound.trendsInRange {s : State} (h : Sound s) : TrendsInRange s.store :=
  fun e he => (h.lanes e.1 e.2 (Table.find_of_mem h.pool.canonical he)).trend

theorem step_trendsInRange {s t : State} (hs : Sound s) (ht : step s = .next t) : TrendsInRange t.store := by
  unfold step at ht
  split at ht
  · cases ht; exact hs.trendsInRange
  · rename_i c rest _
    exact exec_trendsInRange (s := s.withPending rest) c (fun type pol hp => (hs.policies.inRange type pol hp).shift.1)
      hs.trendsInRange t ht

/-- Settles O20: a step of the filter has the difference's sign and is no larger than it, so a new trend lies between
the previous value and the target; and every command keeps every lane's trends in range. -/
theorem trendsStayBetweenValueAndTarget : Obligations.TrendsStayBetweenValueAndTarget := by
  refine ⟨fun k e d hk hlow hhigh _ hdlow hdhigh => ?reading, fun s t hs ht n l p hl => ?everyStep⟩
  case reading =>
    obtain ⟨hmin, hmax⟩ := newTrend_between hk e d
    obtain ⟨hge, hle⟩ := newTrend_in_range hk ⟨hlow, hhigh⟩ ⟨hdlow, hdhigh⟩
    exact ⟨hmin, hmax, hge, hle, newTrend_of_unseeded k d, fun _ => newTrend_change_le hk e d,
      fun he hd => by omega, fun he hd => by omega⟩
  case everyStep => exact (step_trendsInRange hs ht).lane hl p

end Sys2Proof.Machine
end

section
/-! The proofs of this family: READ CLOCK, the bytes of the clock, and the clock requests while READY is low (R137). -/
namespace Sys2Proof.Machine

/-! ### A request while READY is low (R175, R182) -/

theorem openTo_of_not_answering {f : Framer} (r : Request) (h : ∀ r', f ≠ .answering r') : openTo r f = true := by
  cases f with
  | answering r' => exact absurd rfl (h r')
  | idle | taking | replyHeld _ => rfl

/-- Any request command whose frame passes the framer's checks is answered by the framer: no block sees it. -/
theorem exec_request_notReady {c : Instr} {p : Port} {r : Request} {s : State} (hc : c.request = some (p, r))
    (hready : s.lines.ready = false) (hreset : s.lines.resetAsserted = false) (hopen : openTo r (s.framer p) = true)
    (hstructure : structureOk r = true) : exec c s = .next ((s.driven c).hold p (.bare .notReady)) := by
  obtain ⟨block, hexec⟩ := exec_request hc
  rw [hexec]
  exact serve_notReady (by simpa using hreset) (by simpa using hopen) hstructure (by simpa using hready)

/-! ### The clock requests (R134 to R137) -/

theorem exec_readClock (s : State) :
    exec .readClock s = serve .supervision .readClock (fun s => answerDone s (.clock s.clock)) s := rfl

/-- The five clock requests come on the supervision port, pass the framer's checks whatever their values, and do not
sample SUPERVISOR ENABLE. -/
theorem clockRequest_cases {a b d m : Nat} {c : Instr}
    (h : c ∈ [.setClock a b d, .startClock, .stopClock, .readClock, .setDeadline m]) :
    ∃ r, c.request = some (.supervision, r) ∧ structureOk r = true ∧ ∀ s : State, s.driven c = s := by
  simp only [List.mem_cons, List.not_mem_nil, or_false] at h
  rcases h with rfl | rfl | rfl | rfl | rfl
  all_goals exact ⟨_, rfl, rfl, fun _ => rfl⟩

/-- Settles O40: READ CLOCK's block answers with the clock it meets; the clock's bytes are those of its layout; and the
framer answers a clock request itself while READY is low. -/
theorem readClockReportsTheClock : Obligations.ReadClockReportsTheClock := by
  refine ⟨fun s htakes => ?taken, fun k => ?bytes, fun s a b d m c hc hready hreset hfree => ?notReady⟩
  case taken =>
    rw [exec_readClock]
    exact serve_takes_ok htakes rfl
  case bytes => rw [doneBytes, clockBytes]
  case notReady =>
    obtain ⟨r, hrequest, hstructure, hdriven⟩ := clockRequest_cases hc
    rw [exec_request_notReady hrequest hready hreset (openTo_of_not_answering r hfree) hstructure, hdriven]

end Sys2Proof.Machine
end

section
/-! The proofs of this family: IDENTIFY and the part's fixed values (R181). -/
namespace Sys2Proof.Machine

theorem exec_identify (s : State) :
    exec .identify s = serve .supervision .identify (fun s => answerDone s .identity) s := rfl

/-- The codes of R181 and the capacities of Table 0-1, in the order and widths in which IDENTIFY returns them. -/
theorem identityBytes_eq : identityBytes = byte2 3902 ++ byte2 412 ++ byte1 2 ++ byte2 1536 ++ byte2 512 ++ byte2 32 ++
    byte2 8 ++ byte2 24 ++ byte2 24 := by
  simp only [identityBytes, Config.vendorCode, Config.partCode, Config.revision, Config.poolPlaces,
    Config.siteCapacity, Config.lotCapacity, Config.processTypes, Config.intakeCapacity, Config.verdictCapacity]

/-- Settles O50: IDENTIFY's block hands on the state it meets with the identity, so a taken request only holds that
reply; and the identity's bytes are the part's fixed values, of which no state is an argument. -/
theorem identifyNeverChanges : Obligations.IdentifyNeverChanges := by
  refine ⟨fun s htakes => ?taken, ?bytes⟩
  case taken =>
    rw [exec_identify]
    exact serve_takes_ok htakes rfl
  case bytes => rw [doneBytes, identityBytes_eq]

end Sys2Proof.Machine
end

section
/-! The rule of each command: what the state it leaves is known to satisfy, once for every property of states. A block
either answers with the state it met or with one named update of it; every invariant below is read off these rules. -/
namespace Sys2Proof.Machine

/-- Whenever the block answers, the state it leaves has the property. -/
def Answers (Q : State → Prop) (x : Taken) : Prop := ∀ t r, x = .ok (t, r) → Q t

/-- Whenever the event ends in a next state, that state has the property. -/
def Ends (Q : State → Prop) (x : Host.Outcome State Fault Refusal) : Prop := ∀ t, x = .next t → Q t

section
variable {Q : State → Prop} {s : State}

@[simp] theorem answers_ok (t : State) (r : Reply) : Answers Q (.ok (t, r)) ↔ Q t :=
  ⟨fun h => h t r rfl, fun h _ _ e => by cases e; exact h⟩
@[simp] theorem answers_error (f : Fault) : Answers Q (.error f) := fun _ _ e => by cases e
@[simp] theorem answers_answer (t : State) (c : ReplyCode) : Answers Q (answer t c) ↔ Q t := answers_ok ..
@[simp] theorem answers_answerDone (t : State) (b : DoneBody) : Answers Q (answerDone t b) ↔ Q t := answers_ok ..
@[simp] theorem ends_next (t : State) : Ends Q (.next t) ↔ Q t :=
  ⟨fun h => h t rfl, fun h _ e => by cases e; exact h⟩
@[simp] theorem ends_fault (f : Fault) : Ends Q (.fault f) := fun _ e => by cases e

/-- A request command leaves the state as it is, or its block's state, with or without a reply held (R173 to R175). -/
theorem ends_serve {p : Port} {r : Request} {block : State → Taken} (h : Q s)
    (hold : ∀ t reply, Q t → Q (t.hold p reply)) (hblock : Answers Q (block s)) : Ends Q (serve p r block s) := by
  intro t ht
  rcases serve_next ht with rfl | ⟨code, rfl⟩ | ⟨-, u, reply, hb, rfl⟩
  · exact h
  · exact hold s _ h
  · exact hold u reply (hblock u reply hb)

theorem answers_onLane {name : LaneName} {act : Nat → Lane → State → Taken} (h : Q s)
    (hact : ∀ n l, s.lane n = some l → Answers Q (act n l s)) : Answers Q (onLane name act s) := by
  rcases onLane_cases name act s with ⟨-, e⟩ | ⟨-, e⟩ | ⟨n, l, hn, e⟩ <;> rw [e]
  · exact (answers_ok ..).mpr h
  · exact (answers_ok ..).mpr h
  · exact hact n l (lane_of_named hn)

/-! ### The queues (R176, R179) -/

theorem answers_submitBlock (rep : StripReport) (h : Q s)
    (happend : s.queues.intake.length < 24 → Q { s with queues := { s.queues with
      intake := s.queues.intake ++ [⟨s.queues.ticketCounter, takeIn rep⟩]
      ticketCounter := (s.queues.ticketCounter + 1) % 256 } }) : Answers Q (submitBlock rep s) := by
  unfold submitBlock
  split
  · exact (answers_answer ..).mpr h
  · rename_i hroom
    exact (answers_ok ..).mpr (happend (Nat.lt_of_not_le hroom))

theorem answers_collectBlock (h : Q s)
    (htake : ∀ v rest, s.queues.verdicts = v :: rest → Q { s with queues := { s.queues with verdicts := rest } }) :
    Answers Q (collectBlock s) := by
  unfold collectBlock
  split
  · exact (answers_answer ..).mpr h
  · rename_i v rest hv
    exact (answers_answerDone ..).mpr (htake v rest hv)

/-! ### The lanes (chapters 1 and 6) -/

theorem answers_createLaneBlock (c : LaneCreation) (h : Q s)
    (hmake : ∀ slot type active, slotNumber c.slot = some slot → c.store ≠ 0 →
      ((siteSlots c.store s.store.directory).bind fun x => x.get slot) = none → (s.policies.get type).policy ≠ none →
      lotInState type .current s.lots.entries = some active → Table.vacant 0 s.store.pool < 1536 →
      (siteSlots c.store s.store.directory = none → s.store.directory.length < 512) →
      Q (s.addLane (Table.vacant 0 s.store.pool) (newLane c slot type active
        (lotInState type .rolling s.lots.entries) s.clock.day s.sweeps.periodNumber))) :
    Answers Q (createLaneBlock c s) := by
  rcases createLaneBlock_cases c s with ⟨code, e⟩ | ⟨slot, type, active, h1, -, h3, h4, h5, h6, h7, h8, e⟩ <;> rw [e]
  · exact (answers_answer ..).mpr h
  · exact (answers_answerDone ..).mpr (hmake slot type active h1 h3 h4 h5 h6 h7 h8)

theorem answers_editLaneBlock (name : LaneName) (e : LaneEdit) (h : Q s)
    (hedit : ∀ n l, s.lane n = some l → Q (s.putLane n (editLaneOf e l))) : Answers Q (editLaneBlock name e s) := by
  refine answers_onLane h fun n l hl => ?_
  split
  · exact (answers_answer ..).mpr h
  · exact (answers_answerDone ..).mpr (hedit n l hl)

theorem answers_writeLock (mark : Bool) (name : LaneName) (h : Q s)
    (hwrite : ∀ n l, s.lane n = some l → Q (s.putLane n { l with locked := mark })) :
    Answers Q (writeLock mark name s) := by
  refine answers_onLane h fun n l hl => ?_
  split
  · exact (answers_answer ..).mpr h
  · exact (answers_answerDone ..).mpr (hwrite n l hl)

theorem answers_retireLaneBlock (name : LaneName) (h : Q s)
    (hretire : ∀ n l, s.lane n = some l → Q (s.retire n l).1) : Answers Q (retireLaneBlock name s) := by
  refine answers_onLane h fun n l hl => ?_
  split
  · exact (answers_answer ..).mpr h
  · exact (answers_answerDone ..).mpr (hretire n l hl)

/-- One slot of RETIRE SITE: nothing, or its lane retired (R21). -/
theorem retireSlot_keeps (h : Q s) (hretire : ∀ t n l, Q t → t.lane n = some l → Q (t.retire n l).1)
    (lane : Option Nat) : Q (retireSlot s lane).1 := by
  unfold retireSlot
  split
  · exact h
  · rename_i n l hl
    split
    · exact h
    · refine hretire s n l h ?_
      obtain ⟨m, -, hm⟩ := Option.bind_eq_some_iff.mp hl
      obtain ⟨l', hl', e⟩ := Option.map_eq_some_iff.mp hm
      cases e
      exact hl'

theorem answers_retireSiteBlock (store : Nat) (h : Q s)
    (hretire : ∀ t n l, Q t → t.lane n = some l → Q (t.retire n l).1) : Answers Q (retireSiteBlock store s) := by
  unfold retireSiteBlock
  split
  · exact (answers_answer ..).mpr h
  · split
    · exact (answers_answer ..).mpr h
    · exact (answers_answerDone ..).mpr (retireSlot_keeps (retireSlot_keeps (retireSlot_keeps
        (retireSlot_keeps h hretire _) hretire _) hretire _) hretire _)

theorem answers_lookupLaneBlock (name : LaneName) (h : Q s) : Answers Q (lookupLaneBlock name s) :=
  answers_onLane h fun _ _ _ => (answers_answerDone ..).mpr h

theorem answers_nextLaneBlock (start : Option Nat) (h : Q s) : Answers Q (nextLaneBlock start s) := by
  unfold nextLaneBlock
  (repeat' split) <;> exact (answers_ok ..).mpr h

theorem answers_holdLaneBlock (name : LaneName) (h : Q s)
    (hhold : ∀ n l, s.lane n = some l → Q (s.putLane n l.hold)) : Answers Q (holdLaneBlock name s) :=
  answers_onLane h fun n l hl => (answers_answerDone ..).mpr (hhold n l hl)

theorem answers_releaseLaneBlock (name : LaneName) (h : Q s)
    (hreset : ∀ n l, s.lane n = some l → Q (s.putLane n l.resettle)) : Answers Q (releaseLaneBlock name s) := by
  refine answers_onLane h fun n l hl => ?_
  split
  · exact (answers_answerDone ..).mpr (hreset n l hl)
  · exact (answers_answer ..).mpr h

theorem answers_requalifyLaneBlock (name : LaneName) (h : Q s)
    (hreset : ∀ n l, s.lane n = some l → Q (s.putLane n l.resettle)) : Answers Q (requalifyLaneBlock name s) := by
  refine answers_onLane h fun n l hl => ?_
  split
  · exact (answers_answer ..).mpr h
  · exact (answers_answerDone ..).mpr (hreset n l hl)

/-! ### Policies and lots (chapters 2 and 3) -/

theorem answers_setPolicyBlock (type : Nat) (b : Policy) (h : Q s)
    (hstore : ∀ u, Q (s.withPolicy u ⟨some (storedPolicy b), (s.policies.get u).laneCount⟩)) :
    Answers Q (setPolicyBlock type b s) := by
  unfold setPolicyBlock
  split
  · exact (answers_answer ..).mpr h
  · split
    · exact (answers_answer ..).mpr h
    · exact (answers_answerDone ..).mpr (hstore _)

theorem answers_setPolicyUndefineBlock (type : Nat) (h : Q s)
    (hdrop : ∀ u, (s.policies.get u).laneCount = 0 → Q (s.withPolicy u ⟨none, (s.policies.get u).laneCount⟩)) :
    Answers Q (setPolicyUndefineBlock type s) := by
  unfold setPolicyUndefineBlock
  split
  · exact (answers_answer ..).mpr h
  · split
    · exact (answers_answer ..).mpr h
    · split
      · exact (answers_answer ..).mpr h
      · rename_i hcount
        exact (answers_answerDone ..).mpr (hdrop _ (by omega))

theorem answers_readPolicyBlock (type : Nat) (h : Q s) : Answers Q (readPolicyBlock type s) := by
  unfold readPolicyBlock
  (repeat' split) <;> exact (answers_ok ..).mpr h

theorem answers_announceLotBlock (lot type : Nat) (refs : Patches Nat) (h : Q s)
    (hmake : ∀ u, lot ≠ 0 → Table.find lot s.lots.entries = none → s.lots.entries.length < 32 →
      Q { s with lots := ⟨Table.put lot ⟨u, .announced, storedReferences refs, 0, s.clock.day⟩ s.lots.entries,
        s.lots.count + 1⟩ }) : Answers Q (announceLotBlock lot type refs s) := by
  unfold announceLotBlock
  split
  · exact (answers_answer ..).mpr h
  · split
    · exact (answers_answer ..).mpr h
    rename_i hlot
    split
    · exact (answers_answer ..).mpr h
    rename_i hnew
    split
    · exact (answers_answer ..).mpr h
    split
    · exact (answers_answer ..).mpr h
    rename_i hroom
    exact (answers_answerDone ..).mpr (hmake _ hlot (by simpa using hnew) (Nat.lt_of_not_le hroom))

theorem answers_readLotBlock (lot : Nat) (h : Q s) : Answers Q (readLotBlock lot s) := by
  unfold readLotBlock
  (repeat' split) <;> exact (answers_ok ..).mpr h

theorem answers_readLotFollowingBlock (start : Nat) (h : Q s) : Answers Q (readLotFollowingBlock start s) := by
  unfold readLotFollowingBlock
  split <;> exact (answers_ok ..).mpr h

theorem answers_deleteLotBlock (lot : Nat) (h : Q s)
    (hdrop : ∀ e, Table.find lot s.lots.entries = some e → e.state ≠ .rolling → e.users = 0 →
      Q { s with lots := ⟨Table.drop lot s.lots.entries, s.lots.count - 1⟩ }) : Answers Q (deleteLotBlock lot s) := by
  unfold deleteLotBlock
  split
  · exact (answers_answer ..).mpr h
  split
  · exact (answers_answer ..).mpr h
  rename_i e he
  split
  · exact (answers_answer ..).mpr h
  rename_i hstate
  split
  · exact (answers_answer ..).mpr h
  rename_i husers
  exact (answers_answerDone ..).mpr (hdrop e he (fun hr => hstate (.inl hr)) (by omega))

theorem answers_proveBlock (rep : StripReport) (h : Q s) : Answers Q (proveBlock rep s) := by
  unfold proveBlock
  dsimp only
  (repeat' split) <;> first | exact (answers_ok ..).mpr h | exact answers_error _

/-! ### The clock (chapter 7) -/

theorem answers_setClockBlock (day minute base : Nat) (h : Q s)
    (hset : Q (s.withClock { s.clock with day := day, minute := min minute 1439, weekdayBase := min base 6 })) :
    Answers Q (setClockBlock day minute base s) := by
  unfold setClockBlock
  split
  · exact (answers_answer ..).mpr h
  · exact (answers_answerDone ..).mpr hset

/-- A tick: nothing, the stop at the last moment, or the clock one minute on, with an overdue sweep asked for when
the minute is the deadline (R130 to R133). -/
theorem tick_keeps (h : Q s) (hstop : Q (s.withClock { s.clock with running := false }))
    (hmove : s.clock.atLastMoment = false → Q (s.withClock s.clock.advanced))
    (hask : s.clock.atLastMoment = false → Q (s.withClock s.clock.advanced).askOverdue) : Q s.tick := by
  unfold State.tick
  split
  · exact h
  split
  · exact hstop
  rename_i hlast
  dsimp only
  split
  · exact hask (by simpa using hlast)
  · exact hmove (by simpa using hlast)

/-! ### The sweeps (chapter 8) -/

theorem Engine.isRunning_eq_false {e : Engine} (h : ¬e.isRunning = true) : e = .idle := by
  cases e with
  | idle => rfl
  | running w => exact absurd rfl h

theorem answers_startPeriodCloseBlock (h : Q s)
    (hstart : s.sweeps.engine = .idle → Q ((s.withSweeps { s.sweeps with
      periodNumber := (s.sweeps.periodNumber + 1) % 65536 }).startSweep .periodClose)) :
    Answers Q (startPeriodCloseBlock s) := by
  unfold startPeriodCloseBlock
  split
  · exact (answers_answer ..).mpr h
  · rename_i hidle
    exact (answers_answerDone ..).mpr (hstart (Engine.isRunning_eq_false hidle))

theorem answers_startRolloutBlock (lot : Nat) (h : Q s)
    (hstart : ∀ e, s.sweeps.engine = .idle → Table.find lot s.lots.entries = some e → e.state = .announced →
      Q ((s.withLots (setLotState lot .rolling s.lots.entries)).startSweep (.rollout lot))) :
    Answers Q (startRolloutBlock lot s) := by
  unfold startRolloutBlock
  split
  · exact (answers_answer ..).mpr h
  split
  · exact (answers_answer ..).mpr h
  rename_i hidle
  split
  · exact (answers_answer ..).mpr h
  rename_i e he
  split
  · exact (answers_answer ..).mpr h
  rename_i hstate
  exact (answers_answerDone ..).mpr (hstart e (Engine.isRunning_eq_false hidle) he (by simpa using hstate))

theorem answers_startOverdueBlock (h : Q s) (hstart : s.sweeps.engine = .idle → Q (s.startSweep .overdue)) :
    Answers Q (startOverdueBlock s) := by
  unfold startOverdueBlock
  split
  · exact (answers_answer ..).mpr h
  · rename_i hidle
    exact (answers_answerDone ..).mpr (hstart (Engine.isRunning_eq_false hidle))

theorem answers_cancelSweepBlock (h : Q s)
    (hcancel : ∀ w lot, s.sweeps.engine = .running w → w.kind = .rollout lot → Q (s.endSweep .cancelled w)) :
    Answers Q (cancelSweepBlock s) := by
  unfold cancelSweepBlock
  split
  · exact (answers_answer ..).mpr h
  rename_i w hw
  split
  · exact (answers_answer ..).mpr h
  · exact (answers_answer ..).mpr h
  · rename_i lot hk
    exact (answers_answerDone ..).mpr (hcancel w lot hw hk)

theorem ends_onSweep {act : Sweep → Option (Host.Outcome State Fault Refusal)} (h : Q s)
    (hact : ∀ w o, s.sweeps.engine = .running w → act w = some o → Ends Q o) : Ends Q (onSweep act s) := by
  unfold onSweep
  split
  · exact (ends_next _).mpr h
  · rename_i w hw
    split
    · cases ha : act w with
      | none => exact (ends_next _).mpr h
      | some o => exact hact w o hw ha
    · exact (ends_next _).mpr h

theorem ends_execPeriodCloseStep (h : Q s)
    (hstep : ∀ w, s.sweeps.engine = .running w → w.kind = .periodClose →
      Q ((periodCloseAt w.cursor s).1.advance w (periodCloseAt w.cursor s).2)) : Ends Q (execPeriodCloseStep s) := by
  refine ends_onSweep h fun w o hw ho => ?_
  split at ho <;> cases ho
  rename_i hk
  exact (ends_next _).mpr (hstep w hw hk)

theorem ends_execRolloutStep (h : Q s)
    (hstep : ∀ w lot e, s.sweeps.engine = .running w → w.kind = .rollout lot →
      Table.find lot s.lots.entries = some e →
      Q ((rolloutAt lot e.type w.cursor s).1.advance w (rolloutAt lot e.type w.cursor s).2)) :
    Ends Q (execRolloutStep s) := by
  refine ends_onSweep h fun w o hw ho => ?_
  split at ho
  · rename_i lot hk
    split at ho <;> cases ho
    · exact ends_fault _
    · rename_i e he
      exact (ends_next _).mpr (hstep w lot e hw hk he)
  all_goals cases ho

theorem ends_execOverdueStep (h : Q s)
    (hstep : ∀ w t worked, s.sweeps.engine = .running w → w.kind = .overdue →
      overdueAt w.cursor s = .ok (t, worked) → Q (t.advance w worked)) : Ends Q (execOverdueStep s) := by
  refine ends_onSweep h fun w o hw ho => ?_
  split at ho
  · rename_i hk
    split at ho <;> cases ho
    · rename_i t worked hat
      exact (ends_next _).mpr (hstep w t worked hw hk hat)
    · exact ends_fault _
  all_goals cases ho

/-! ### The Attention List (chapter 9) -/

theorem answers_takeNoticeBlock (h : Q s)
    (htake : ∀ n rest l, s.attention.order = n :: rest → s.lane n = some l →
      Q ((s.putLane n { l with causes := .empty, joined := none }).withAttention
        { s.attention with order := rest, length := s.attention.length - 1 })) : Answers Q (takeNoticeBlock s) := by
  unfold takeNoticeBlock
  split
  · exact (answers_answer ..).mpr h
  rename_i n rest horder
  split
  · exact answers_error _
  rename_i l hl
  split
  · exact answers_error _
  · exact (answers_answerDone ..).mpr (htake n rest l horder hl)

theorem answers_setAttentionModeBlock (mode : Nat) (h : Q s)
    (hset : ∀ m, Q (s.withAttention { s.attention with mode := m, pulsesOwed := 0, pulseInProgress := false })) :
    Answers Q (setAttentionModeBlock mode s) := by
  unfold setAttentionModeBlock
  split
  · exact (answers_answer ..).mpr h
  · exact (answers_answerDone ..).mpr (hset _)

theorem ends_execAttnPulseStart (h : Q s)
    (hstart : 0 < s.attention.pulsesOwed → Q (s.withAttention { s.attention with pulseInProgress := true })) :
    Ends Q (execAttnPulseStart s) := by
  unfold execAttnPulseStart
  split
  · rename_i hc
    simp only [Bool.and_eq_true, decide_eq_true_eq] at hc
    exact (ends_next _).mpr (hstart hc.1.2)
  · exact (ends_next _).mpr h

theorem ends_execAttnPulseEnd (h : Q s)
    (hend : Q (s.withAttention
      { s.attention with pulseInProgress := false, pulsesOwed := s.attention.pulsesOwed - 1 })) :
    Ends Q (execAttnPulseEnd s) := by
  unfold execAttnPulseEnd
  split
  · exact (ends_next _).mpr hend
  · exact (ends_next _).mpr h

/-! ### The frames (chapter 10) -/

theorem ends_execRequestFrameBegin (p : Port) (h : Q s)
    (htake : s.lines.resetAsserted = false → Q (s.withFramer p .taking)) : Ends Q (execRequestFrameBegin p s) := by
  unfold execRequestFrameBegin
  split
  · exact (ends_next _).mpr h
  · rename_i hreset
    split
    · exact (ends_next _).mpr (htake (by simpa using hreset))
    · exact (ends_next _).mpr (htake (by simpa using hreset))
    · exact (ends_next _).mpr h
    · exact ends_fault _

theorem ends_execRequestFrameEnd (p : Port) (bytes : List Byte) (h : Q s)
    (hhold : ∀ reply, s.lines.resetAsserted = false → Q (s.hold p reply))
    (hparse : ∀ r, s.lines.resetAsserted = false → s.lines.ready = true → parseFrame p bytes = some r →
      Q (s.withFramer p (.answering r))) : Ends Q (execRequestFrameEnd p bytes s) := by
  unfold execRequestFrameEnd
  split
  · exact (ends_next _).mpr h
  rename_i hreset
  simp only [Bool.or_eq_true, not_or, Bool.not_eq_true] at hreset
  split
  · split
    · exact (ends_next _).mpr (hhold _ hreset.1)
    · rename_i r hr
      split
      · rename_i hready
        exact (ends_next _).mpr (hparse r hreset.1 hready hr)
      · exact (ends_next _).mpr (hhold _ hreset.1)
  all_goals exact (ends_next _).mpr h

/-- A READ frame leaves the framer as it was or, after a reply read in full, IDLE (R172). -/
theorem ends_execReadFrame (p : Port) (began : ReadStart) (clocked : Nat) (h : Q s)
    (hread : ∀ x : PortState, s.lines.resetAsserted = false → x.framer = .idle ∨ x.framer = s.framer p →
      Q (s.withPort p x)) : Ends Q (execReadFrame p began clocked s) := by
  unfold execReadFrame
  split
  · exact (ends_next _).mpr h
  rename_i hreset
  have hreset' : s.lines.resetAsserted = false := by
    simp only [Bool.or_eq_true, not_or, Bool.not_eq_true] at hreset; exact hreset.1
  split
  · exact ends_fault _
  · exact (ends_next _).mpr (hread _ hreset' (.inl rfl))
  · rename_i r hf
    exact (ends_next _).mpr (hread _ hreset' (.inr hf.symm))
  · rename_i reply hf
    split
    · refine (ends_next _).mpr (hread _ hreset' ?_)
      dsimp only
      split
      · exact .inl rfl
      · exact .inr hf.symm
    · exact (ends_next _).mpr (hread _ hreset' (.inr hf.symm))

/-! ### The evaluation (R67, R178) -/

theorem ends_execEvaluation (h : Q s)
    (htake : ∀ q rest t, s.queues.intake = q :: rest → s.queues.verdicts.length < 24 →
      evaluateReport q { s with queues := { s.queues with intake := rest } } = .ok t → Q t) :
    Ends Q (execEvaluation s) := by
  unfold execEvaluation
  split
  · rename_i hc
    simp only [Bool.and_eq_true, decide_eq_true_eq] at hc
    split
    · exact (ends_next _).mpr h
    · rename_i q rest hq
      split
      · rename_i t ht
        exact (ends_next _).mpr (htake q rest t hq hc.2 ht)
      · exact ends_fault _
  · exact (ends_next _).mpr h

/-- Everything the evaluation of a report can come to: the verdict NO LANE, or the judgement of the named lane
committed and its verdict pushed (R67, R68). -/
theorem evaluateReport_cases {q : QueuedReport} {t : State} (h : evaluateReport q s = .ok t) :
    (s.laneAt q.report.store q.report.slot = none ∧
      t = s.pushVerdict (verdictOf (some q.ticket) q.report none (.refused .noLane))) ∨
    ∃ n l pol j, s.laneAt q.report.store q.report.slot = some (n, l) ∧ (s.policies.get l.type).policy = some pol ∧
      judge s.lots.entries pol s.clock.day l q.report = .ok j ∧
      t = (commitJudgement s n l pol.noticeMask q.report.lot j).pushVerdict
        (verdictOf (some q.ticket) q.report (some n) j.body) := by
  unfold evaluateReport at h
  dsimp only at h
  split at h
  · rename_i hl
    cases h
    exact .inl ⟨hl, rfl⟩
  · rename_i n l hl
    split at h
    · cases h
    · rename_i pol hpol
      split at h <;> cases h
      rename_i j hj
      exact .inr ⟨n, l, pol, j, hl, hpol, hj, rfl⟩

end

end Sys2Proof.Machine
end

section
/-! The proofs of this family: the commands that wait, the framers and the queues of tickets, which every command
either leaves or moves by one named update (R171 to R179). -/
namespace Sys2Proof.Machine

/-! ### What the block of a request leaves outside itself -/

/-- The requests whose block writes the queues. -/
def writesQueues : Request → Bool
  | .submit _ | .collect => true
  | _ => false

/-- The commands that wait, the lines and the ports stand, and so do the queues but for SUBMIT and COLLECT. -/
structure KeepsShell (r : Request) (s t : State) : Prop where
  pending : t.pending = s.pending
  lines : t.lines = s.lines
  ports : t.ports = s.ports
  queues : writesQueues r = false → t.queues = s.queues

theorem KeepsShell.refl (r : Request) (s : State) : KeepsShell r s s := ⟨rfl, rfl, rfl, fun _ => rfl⟩

theorem KeepsShell.retire {r : Request} {s t : State} (h : KeepsShell r s t) (n : Nat) (l : Lane) :
    KeepsShell r s (t.retire n l).1 :=
  ⟨h.pending, h.lines, h.ports, h.queues⟩

/-- Every request command is served by one block, on the state with the line driven, and the block keeps the shell. -/
theorem exec_request_keepsShell {c : Instr} {p : Port} {r : Request} (h : c.request = some (p, r)) :
    ∃ block : State → Taken, (∀ s, exec c s = serve p r block (s.driven c)) ∧
      ∀ s, Answers (KeepsShell r s) (block s) := by
  cases c with
  | requestFrameBegin | requestFrameEnd | readFrame | evaluation | minuteTick | dayRollover | clockLastMomentStop
  | deadlineTick | periodCloseStep | rolloutStep | overdueStep | attnPulseStart | attnPulseEnd | powerOn
  | clearingEnd | warmReset | resetRelease => cases h
  | submit rep => cases h; exact ⟨_, fun s => rfl, fun s => answers_submitBlock rep (.refl _ s) fun _ => ⟨rfl, rfl, rfl, nofun⟩⟩
  | collect => cases h; exact ⟨_, fun s => rfl, fun s => answers_collectBlock (.refl _ s) fun _ _ _ => ⟨rfl, rfl, rfl, nofun⟩⟩
  | createLane c =>
    cases h
    exact ⟨_, fun s => rfl, fun s => answers_createLaneBlock c (.refl _ s) fun _ _ _ _ _ _ _ _ _ _ =>
      ⟨rfl, rfl, rfl, fun _ => rfl⟩⟩
  | editLane x e line =>
    cases h
    exact ⟨_, fun s => rfl, fun s => answers_editLaneBlock x e (.refl _ s) fun _ _ _ => ⟨rfl, rfl, rfl, fun _ => rfl⟩⟩
  | lockLane x line =>
    cases h
    exact ⟨_, fun s => rfl, fun s => answers_writeLock true x (.refl _ s) fun _ _ _ => ⟨rfl, rfl, rfl, fun _ => rfl⟩⟩
  | unlockLane x line =>
    cases h
    exact ⟨_, fun s => rfl, fun s => answers_writeLock false x (.refl _ s) fun _ _ _ => ⟨rfl, rfl, rfl, fun _ => rfl⟩⟩
  | retireLane x line =>
    cases h
    exact ⟨_, fun s => rfl, fun s => answers_retireLaneBlock x (.refl _ s) fun n l _ => (KeepsShell.refl _ s).retire n l⟩
  | retireSite b line =>
    cases h
    exact ⟨_, fun s => rfl, fun s => answers_retireSiteBlock b (.refl _ s) fun _ n l ht _ => ht.retire n l⟩
  | lookupLane x => cases h; exact ⟨_, fun s => rfl, fun s => answers_lookupLaneBlock x (.refl _ s)⟩
  | nextLane x => cases h; exact ⟨_, fun s => rfl, fun s => answers_nextLaneBlock x (.refl _ s)⟩
  | holdLane x =>
    cases h
    exact ⟨_, fun s => rfl, fun s => answers_holdLaneBlock x (.refl _ s) fun _ _ _ => ⟨rfl, rfl, rfl, fun _ => rfl⟩⟩
  | releaseLane x =>
    cases h
    exact ⟨_, fun s => rfl, fun s => answers_releaseLaneBlock x (.refl _ s) fun _ _ _ => ⟨rfl, rfl, rfl, fun _ => rfl⟩⟩
  | requalifyLane x =>
    cases h
    exact ⟨_, fun s => rfl, fun s => answers_requalifyLaneBlock x (.refl _ s) fun _ _ _ => ⟨rfl, rfl, rfl, fun _ => rfl⟩⟩
  | setPolicy n b line =>
    cases h
    exact ⟨_, fun s => rfl, fun s => answers_setPolicyBlock n b (.refl _ s) fun _ => ⟨rfl, rfl, rfl, fun _ => rfl⟩⟩
  | setPolicyUndefine n line =>
    cases h
    exact ⟨_, fun s => rfl, fun s => answers_setPolicyUndefineBlock n (.refl _ s) fun _ _ => ⟨rfl, rfl, rfl, fun _ => rfl⟩⟩
  | readPolicy n => cases h; exact ⟨_, fun s => rfl, fun s => answers_readPolicyBlock n (.refl _ s)⟩
  | announceLot lot n refs =>
    cases h
    exact ⟨_, fun s => rfl, fun s => answers_announceLotBlock lot n refs (.refl _ s) fun _ _ _ _ =>
      ⟨rfl, rfl, rfl, fun _ => rfl⟩⟩
  | readLot lot => cases h; exact ⟨_, fun s => rfl, fun s => answers_readLotBlock lot (.refl _ s)⟩
  | readLotFollowing lot => cases h; exact ⟨_, fun s => rfl, fun s => answers_readLotFollowingBlock lot (.refl _ s)⟩
  | deleteLot lot =>
    cases h
    exact ⟨_, fun s => rfl, fun s => answers_deleteLotBlock lot (.refl _ s) fun _ _ _ _ => ⟨rfl, rfl, rfl, fun _ => rfl⟩⟩
  | prove rep => cases h; exact ⟨_, fun s => rfl, fun s => answers_proveBlock rep (.refl _ s)⟩
  | setClock d m b =>
    cases h
    exact ⟨_, fun s => rfl, fun s => answers_setClockBlock d m b (.refl _ s) ⟨rfl, rfl, rfl, fun _ => rfl⟩⟩
  | startClock =>
    cases h
    exact ⟨fun s => writeClock { s.clock with running := true } s, fun s => rfl, fun s =>
      (answers_answerDone ..).mpr ⟨rfl, rfl, rfl, fun _ => rfl⟩⟩
  | stopClock =>
    cases h
    exact ⟨fun s => writeClock { s.clock with running := false } s, fun s => rfl, fun s =>
      (answers_answerDone ..).mpr ⟨rfl, rfl, rfl, fun _ => rfl⟩⟩
  | setDeadline m =>
    cases h
    exact ⟨fun s => writeClock { s.clock with deadline := min m Config.lastMinute } s, fun s => rfl, fun s =>
      (answers_answerDone ..).mpr ⟨rfl, rfl, rfl, fun _ => rfl⟩⟩
  | readClock =>
    cases h
    exact ⟨fun s => answerDone s (.clock s.clock), fun s => rfl, fun s => (answers_answerDone ..).mpr (.refl _ s)⟩
  | status line =>
    cases h
    exact ⟨fun s => answerDone s (.status (statusOf s)), fun s => rfl, fun s =>
      (answers_answerDone ..).mpr (.refl _ s)⟩
  | identify =>
    cases h
    exact ⟨fun s => answerDone s .identity, fun s => rfl, fun s => (answers_answerDone ..).mpr (.refl _ s)⟩
  | startPeriodClose =>
    cases h
    exact ⟨_, fun s => rfl, fun s => answers_startPeriodCloseBlock (.refl _ s) fun _ => ⟨rfl, rfl, rfl, fun _ => rfl⟩⟩
  | startRollout lot =>
    cases h
    exact ⟨_, fun s => rfl, fun s => answers_startRolloutBlock lot (.refl _ s) fun _ _ _ _ =>
      ⟨rfl, rfl, rfl, fun _ => rfl⟩⟩
  | startOverdue =>
    cases h
    exact ⟨_, fun s => rfl, fun s => answers_startOverdueBlock (.refl _ s) fun _ => ⟨rfl, rfl, rfl, fun _ => rfl⟩⟩
  | cancelSweep =>
    cases h
    exact ⟨_, fun s => rfl, fun s => answers_cancelSweepBlock (.refl _ s) fun _ _ _ _ => ⟨rfl, rfl, rfl, fun _ => rfl⟩⟩
  | sweepStatus =>
    cases h
    exact ⟨sweepStatusBlock, fun s => rfl, fun s => (answers_answerDone ..).mpr ⟨rfl, rfl, rfl, fun _ => rfl⟩⟩
  | takeNotice =>
    cases h
    exact ⟨_, fun s => rfl, fun s => answers_takeNoticeBlock (.refl _ s) fun _ _ _ _ _ => ⟨rfl, rfl, rfl, fun _ => rfl⟩⟩
  | setAttentionMode m =>
    cases h
    exact ⟨_, fun s => rfl, fun s => answers_setAttentionModeBlock m (.refl _ s) fun _ => ⟨rfl, rfl, rfl, fun _ => rfl⟩⟩

/-! ### The commands that are no request -/

/-- What an event of the part's own leaves: the commands that wait, the lines, the ports and the queues. -/
structure SameShell (s t : State) : Prop where
  pending : t.pending = s.pending
  lines : t.lines = s.lines
  ports : t.ports = s.ports
  queues : t.queues = s.queues

theorem SameShell.refl (s : State) : SameShell s s := ⟨rfl, rfl, rfl, rfl⟩

theorem SameShell.trans {s t u : State} (h : SameShell s t) (g : SameShell t u) : SameShell s u :=
  ⟨g.pending.trans h.pending, g.lines.trans h.lines, g.ports.trans h.ports, g.queues.trans h.queues⟩

theorem advance_sameShell (s : State) (w : Sweep) (worked : Bool) : SameShell s (s.advance w worked) := by
  unfold State.advance
  dsimp only
  split <;> exact ⟨rfl, rfl, rfl, rfl⟩

theorem askOverdue_sameShell (s : State) : SameShell s s.askOverdue := by
  unfold State.askOverdue
  split <;> exact ⟨rfl, rfl, rfl, rfl⟩

theorem tick_sameShell (s : State) : SameShell s s.tick :=
  tick_keeps (.refl s) ⟨rfl, rfl, rfl, rfl⟩ (fun _ => ⟨rfl, rfl, rfl, rfl⟩)
    fun _ => .trans (t := s.withClock s.clock.advanced) ⟨rfl, rfl, rfl, rfl⟩ (askOverdue_sameShell _)

theorem raise_sameShell (s : State) (m : Causes) (n : Nat) (c : Cause) : SameShell s (s.raise m n c) :=
  ⟨State.raise_pending .., State.raise_lines .., State.raise_ports .., State.raise_queues ..⟩

theorem raiseAll_sameShell (s : State) (m : Causes) (n : Nat) (cs : List Cause) : SameShell s (s.raiseAll m n cs) :=
  raiseAll_induction (motive := SameShell s) m n (fun t c ht => ht.trans (raise_sameShell t m n c)) cs s (.refl s)

theorem commitJudgement_sameShell (s : State) (n : Nat) (l : Lane) (m : Causes) (lot : Nat) (j : Judgement) :
    SameShell s (commitJudgement s n l m lot j) := by
  refine SameShell.trans ?_ (raiseAll_sameShell _ m n j.causes)
  exact ⟨rfl, rfl, rfl, rfl⟩

theorem periodCloseAt_sameShell (n : Nat) (s : State) : SameShell s (periodCloseAt n s).1 := by
  unfold periodCloseAt
  (repeat' split) <;> exact ⟨rfl, rfl, rfl, rfl⟩

theorem rolloutAt_sameShell (lot : Nat) (u : ProcessType) (n : Nat) (s : State) :
    SameShell s (rolloutAt lot u n s).1 := by
  unfold rolloutAt
  (repeat' split) <;> exact ⟨rfl, rfl, rfl, rfl⟩

/-- Everything the work of an overdue step can come to (R140). -/
theorem overdueAt_cases {n : Nat} {s t : State} {worked : Bool} (h : overdueAt n s = .ok (t, worked)) :
    t = s ∨ ∃ l pol, s.lane n = some l ∧ l.state ≠ .held ∧ (s.policies.get l.type).policy = some pol ∧
      t = (s.putLane n { l with
        overdue := true
        counters := { l.counters with overdueRaises := saturate 255 l.counters.overdueRaises } }).raise
          pol.noticeMask n .overdue := by
  unfold overdueAt at h
  split at h
  · cases h; exact .inl rfl
  · rename_i l hl
    split at h
    · cases h; exact .inl rfl
    · rename_i hheld
      split at h
      · cases h
      · rename_i pol hpol
        split at h <;> cases h
        · exact .inl rfl
        · exact .inr ⟨l, pol, hl, hheld, hpol, rfl⟩

theorem overdueAt_sameShell {n : Nat} {s t : State} {worked : Bool} (h : overdueAt n s = .ok (t, worked)) :
    SameShell s t := by
  rcases overdueAt_cases h with rfl | ⟨l, pol, -, -, -, rfl⟩
  · exact .refl _
  · refine SameShell.trans ?_ (raise_sameShell _ _ _ _)
    exact ⟨rfl, rfl, rfl, rfl⟩

theorem endSweep_sameShell (s : State) (e : Ending) (w : Sweep) : SameShell s (s.endSweep e w) := ⟨rfl, rfl, rfl, rfl⟩

/-- The events of the part's own that move neither a line, a framer nor a queue. -/
def movesShell : Instr → Bool
  | .minuteTick | .dayRollover | .clockLastMomentStop | .deadlineTick | .periodCloseStep | .rolloutStep | .overdueStep
  | .attnPulseStart | .attnPulseEnd => false
  | _ => true

theorem exec_sameShell {c : Instr} (h : movesShell c = false) (s : State) : Ends (SameShell s) (exec c s) := by
  cases c with
  | minuteTick | dayRollover | clockLastMomentStop | deadlineTick => exact (ends_next _).mpr (tick_sameShell s)
  | periodCloseStep =>
    exact ends_execPeriodCloseStep (.refl s) fun w _ _ =>
      (periodCloseAt_sameShell w.cursor s).trans (advance_sameShell _ _ _)
  | rolloutStep =>
    exact ends_execRolloutStep (.refl s) fun w lot e _ _ _ =>
      (rolloutAt_sameShell lot e.type w.cursor s).trans (advance_sameShell _ _ _)
  | overdueStep =>
    exact ends_execOverdueStep (.refl s) fun w t worked _ _ ht =>
      (overdueAt_sameShell ht).trans (advance_sameShell _ _ _)
  | attnPulseStart => exact ends_execAttnPulseStart (.refl s) fun _ => ⟨rfl, rfl, rfl, rfl⟩
  | attnPulseEnd => exact ends_execAttnPulseEnd (.refl s) ⟨rfl, rfl, rfl, rfl⟩
  | _ => cases h

/-- The evaluation of a report leaves the shell, but for one verdict with the report's ticket at the tail. -/
theorem evaluateReport_shell {s t : State} {q : QueuedReport} (h : evaluateReport q s = .ok t) :
    t.pending = s.pending ∧ t.lines = s.lines ∧ t.ports = s.ports ∧
      ∃ v : Verdict, v.ticket = some q.ticket ∧ t.queues = { s.queues with verdicts := s.queues.verdicts ++ [v] } := by
  rcases evaluateReport_cases h with ⟨-, rfl⟩ | ⟨n, l, pol, j, -, -, -, rfl⟩
  · exact ⟨rfl, rfl, rfl, _, rfl, rfl⟩
  · have hshell := commitJudgement_sameShell s n l pol.noticeMask q.report.lot j
    refine ⟨hshell.pending, hshell.lines, hshell.ports, verdictOf (some q.ticket) q.report (some n) j.body, rfl, ?_⟩
    simp only [State.pushVerdict, hshell.queues]

/-- A warm reset, whatever it makes of the sweep, keeps what no rule of R184 names. -/
theorem breakSweep_sameShell (s : State) : SameShell s s.breakSweep := by
  unfold State.breakSweep
  (repeat' split) <;> exact ⟨rfl, rfl, rfl, rfl⟩

/-! ### The commands that wait (log entry 1) -/

theorem exec_pending (c : Instr) (s : State) : Ends (fun t => t.pending = s.pending) (exec c s) := by
  cases hr : c.request with
  | some pr =>
    obtain ⟨p, r⟩ := pr
    obtain ⟨block, hexec, hkeeps⟩ := exec_request_keepsShell hr
    rw [hexec]
    refine ends_serve (State.driven_pending s c) (fun t reply ht => (State.hold_pending ..).trans ht) ?_
    exact fun t reply ht => ((hkeeps _) t reply ht).pending.trans (State.driven_pending s c)
  | none =>
    cases hm : movesShell c with
    | false => exact fun t ht => (exec_sameShell hm s t ht).pending
    | true =>
      cases c with
      | requestFrameBegin p => exact ends_execRequestFrameBegin p rfl fun _ => State.withFramer_pending ..
      | requestFrameEnd p bytes =>
        exact ends_execRequestFrameEnd p bytes rfl (fun _ _ => State.hold_pending ..)
          fun _ _ _ _ => State.withFramer_pending ..
      | readFrame p began n => exact ends_execReadFrame p began n rfl fun _ _ _ => State.withPort_pending ..
      | evaluation => exact ends_execEvaluation rfl fun q rest t _ _ ht => (evaluateReport_shell ht).1
      | powerOn => exact (ends_next _).mpr rfl
      | resetRelease => exact (ends_next _).mpr rfl
      | clearingEnd => simp only [exec, execClearingEnd]; split <;> exact (ends_next _).mpr rfl
      | warmReset =>
        simp only [exec, execWarmReset]
        split
        · exact (ends_next _).mpr rfl
        · exact (ends_next _).mpr (breakSweep_sameShell s).pending
      | minuteTick | dayRollover | clockLastMomentStop | deadlineTick | periodCloseStep | rolloutStep | overdueStep
      | attnPulseStart | attnPulseEnd => cases hm
      | _ => cases hr

/-! ### No command is without meaning (log entry 1) -/

/-- The event answers no refusal. -/
def HasMeaning (x : Host.Outcome State Fault Refusal) : Prop := ∀ r, x ≠ .refused r

@[simp] theorem hasMeaning_next (t : State) : HasMeaning (.next t) := nofun
@[simp] theorem hasMeaning_fault (f : Fault) : HasMeaning (.fault f) := nofun

theorem hasMeaning_onSweep {act : Sweep → Option (Host.Outcome State Fault Refusal)} {s : State}
    (hact : ∀ w o, act w = some o → HasMeaning o) : HasMeaning (onSweep act s) := by
  unfold onSweep
  split
  · exact hasMeaning_next _
  · rename_i w _
    split
    · cases ha : act w with
      | none => exact hasMeaning_next _
      | some o => exact hact w o ha
    · exact hasMeaning_next _

theorem exec_hasMeaning (c : Instr) (s : State) : HasMeaning (exec c s) := by
  cases hr : c.request with
  | some pr =>
    obtain ⟨block, hexec, -⟩ := exec_request_keepsShell hr
    rw [hexec]
    exact serve_not_refused _ _ _ _
  | none =>
    cases c with
    | requestFrameBegin p => simp only [exec, execRequestFrameBegin]; (repeat' split) <;> simp
    | requestFrameEnd p bytes => simp only [exec, execRequestFrameEnd]; (repeat' split) <;> simp
    | readFrame p began n => simp only [exec, execReadFrame]; (repeat' split) <;> simp
    | evaluation => simp only [exec, execEvaluation]; (repeat' split) <;> simp
    | minuteTick | dayRollover | clockLastMomentStop | deadlineTick | powerOn | resetRelease => exact hasMeaning_next _
    | clearingEnd => simp only [exec, execClearingEnd]; split <;> simp
    | warmReset => simp only [exec, execWarmReset]; split <;> simp
    | attnPulseStart => simp only [exec, execAttnPulseStart]; split <;> simp
    | attnPulseEnd => simp only [exec, execAttnPulseEnd]; split <;> simp
    | periodCloseStep =>
      refine hasMeaning_onSweep fun w o ho => ?_
      split at ho <;> cases ho
      exact hasMeaning_next _
    | rolloutStep =>
      refine hasMeaning_onSweep fun w o ho => ?_
      split at ho
      · split at ho <;> cases ho <;> simp
      all_goals cases ho
    | overdueStep =>
      refine hasMeaning_onSweep fun w o ho => ?_
      split at ho
      · split at ho <;> cases ho <;> simp
      all_goals cases ho
    | _ => cases hr

/-- Settles O2: no block and no event answers a refusal or writes the queue of waiting commands. -/
theorem commandsKeepTheQueueAndNeverRefuse : Obligations.CommandsKeepTheQueueAndNeverRefuse :=
  fun c s => ⟨exec_hasMeaning c s, exec_pending c s⟩

/-! ### A step in terms of its command (log entry 1) -/

theorem step_of_pending {s : State} {c : Instr} {rest : List Instr} (h : s.pending = c :: rest) :
    step s = exec c (s.withPending rest) := by
  simp only [step, h]

/-- Settles O1: the two cases of `step`. -/
theorem stepRunsTheFrontCommand : Obligations.StepRunsTheFrontCommand :=
  ⟨fun _ _ _ h => step_of_pending h, fun s h => by simp only [step, h]⟩

/-- Everything a step that answers a next state can come to: the idle step, or a well-formed command run. -/
theorem step_next_cases {s t : State} (hs : PendingSound s) (h : step s = .next t) :
    (s.pending = [] ∧ t = s) ∨
      ∃ c rest, s.pending = c :: rest ∧ c.WellFormed = true ∧ exec c (s.withPending rest) = .next t := by
  cases hp : s.pending with
  | nil =>
    simp only [step, hp] at h
    cases h
    exact .inl ⟨rfl, rfl⟩
  | cons c rest =>
    rw [step_of_pending hp] at h
    exact .inr ⟨c, rest, rfl, hs c (by rw [hp]; exact List.mem_cons_self ..), h⟩

theorem step_pendingSound {s t : State} (hs : PendingSound s) (h : step s = .next t) : PendingSound t := by
  rcases step_next_cases hs h with ⟨-, rfl⟩ | ⟨c, rest, hp, -, hexec⟩
  · exact hs
  · have hpending : t.pending = rest := exec_pending c _ t hexec
    intro x hx
    rw [hpending] at hx
    exact hs x (by rw [hp]; exact List.mem_cons_of_mem _ hx)

/-! ### The framers (R171, R174, R184) -/

/-- The request a frame carries is one of the port its kind belongs to (Table 11-1). -/
theorem readRequest_port {kind flags : Nat} {bytes : List Byte} {f : FrameForm} {r : Request}
    (hf : frameForm kind = some f) (hr : readRequest kind flags bytes = some r) : requestPort r = f.port := by
  unfold frameForm at hf
  split at hf <;> cases hf <;>
    simp only [readRequest, Option.bind_eq_some_iff, Option.map_eq_some_iff, Option.some.injEq] at hr
  case h_3 => obtain ⟨_, -, _, -, _, -, rfl⟩ := hr; rfl
  case h_4 => obtain ⟨_, -, _, -, _, -, _, -, rfl⟩ := hr; rfl
  case h_14 => split at hr <;> cases hr <;> rfl
  case h_17 => split at hr <;> cases hr <;> rfl
  all_goals subst hr; rfl

theorem parseFrame_eq_some {p : Port} {bytes : List Byte} {r : Request} (h : parseFrame p bytes = some r) :
    ∃ f, frameForm (read1 bytes 0) = some f ∧ f.port = p ∧ lengthOk f (read1 bytes 1) bytes.length = true ∧
      readRequest (read1 bytes 0) (read1 bytes 1) bytes = some r ∧ structureOk r = true := by
  unfold parseFrame at h
  dsimp only at h
  split at h
  · cases h
  · rename_i f hf
    split at h
    · rename_i hc
      obtain ⟨hr, hs⟩ := Option.filter_eq_some_iff.mp h
      exact ⟨f, hf, hc.1, hc.2, hr, hs⟩
    · cases h

/-- A framer that hands on a parsed request answers a request of its port that passed its checks (R174). -/
theorem parseFrame_port {p : Port} {bytes : List Byte} {r : Request} (h : parseFrame p bytes = some r) :
    requestPort r = p ∧ structureOk r = true := by
  obtain ⟨f, hf, hport, -, hr, hs⟩ := parseFrame_eq_some h
  exact ⟨(readRequest_port hf hr).trans hport, hs⟩

theorem PortsSound.of_eq {s t : State} (h : PortsSound s) (hreset : t.lines.resetAsserted = s.lines.resetAsserted)
    (hready : t.lines.ready = s.lines.ready) (hframer : ∀ p, t.framer p = s.framer p) : PortsSound t := by
  constructor
  · intro hr p; rw [hframer]; exact h.reset (hreset ▸ hr) p
  · intro hr p r; rw [hframer]; exact h.clearing (hready ▸ hr) p r
  · intro p r hr; exact h.answering p r (hframer p ▸ hr)

theorem PortsSound.of_idle {t : State} (h : ∀ p, t.framer p = .idle) : PortsSound t :=
  have hfree : ∀ p r, t.framer p ≠ .answering r := fun p r hr => by rw [h p] at hr; cases hr
  ⟨fun _ => h, fun _ => hfree, fun p r hr => absurd hr (hfree p r)⟩

/-- A framer moved while RESET is released stays sound when it then answers only what its port may. -/
theorem PortsSound.withPort {s : State} (h : PortsSound s) (p : Port) (x : PortState)
    (hreset : s.lines.resetAsserted = false)
    (hx : ∀ r, x.framer = .answering r → s.lines.ready = true ∧ requestPort r = p ∧ structureOk r = true) :
    PortsSound (s.withPort p x) := by
  have hframer : ∀ q, q ≠ p → (s.withPort p x).framer q = s.framer q := fun q hq => by
    simp only [State.framer, State.withPort_port_ne s p q x (Ne.symm hq)]
  constructor
  case reset => intro hr; simp [hreset] at hr
  case clearing =>
    intro hr q r hq
    rw [State.withPort_lines] at hr
    by_cases hqp : q = p
    · subst hqp
      rw [State.withPort_framer] at hq
      rw [(hx r hq).1] at hr
      cases hr
    · exact h.clearing hr q r (by rw [← hframer q hqp, hq])
  case answering =>
    intro q r hq
    by_cases hqp : q = p
    · subst hqp
      rw [State.withPort_framer] at hq
      exact (hx r hq).2
    · exact h.answering q r (by rw [← hframer q hqp, hq])

theorem PortsSound.hold {s : State} (h : PortsSound s) (p : Port) (reply : Reply)
    (hreset : s.lines.resetAsserted = false) : PortsSound (s.hold p reply) :=
  h.withPort p _ hreset fun _ hr => by cases hr

theorem framer_eq_of_ports {s t : State} (h : t.ports = s.ports) (p : Port) : t.framer p = s.framer p := by
  cases p <;> simp only [State.framer, State.port, h]

theorem SameShell.portsSound {s t : State} (h : PortsSound s) (e : SameShell s t) : PortsSound t :=
  h.of_eq (by rw [e.lines]) (by rw [e.lines]) (framer_eq_of_ports e.ports)

theorem exec_portsSound {c : Instr} {s : State} (hs : PortsSound s) : Ends PortsSound (exec c s) := by
  cases hr : c.request with
  | some pr =>
    obtain ⟨p, r⟩ := pr
    obtain ⟨block, hexec, hkeeps⟩ := exec_request_keepsShell hr
    have hdriven : PortsSound (s.driven c) := hs.of_eq (by simp) (by simp) (by simp)
    intro t ht
    rw [hexec] at ht
    cases hreset : s.lines.resetAsserted with
    | true =>
      rw [serve_reset (by simpa using hreset)] at ht
      cases ht
      exact hdriven
    | false =>
      have hreset' : (s.driven c).lines.resetAsserted = false := by simpa using hreset
      rcases serve_next ht with rfl | ⟨code, rfl⟩ | ⟨-, u, reply, hb, rfl⟩
      · exact hdriven
      · exact hdriven.hold p _ hreset'
      · have hkept := hkeeps _ u reply hb
        have hu : PortsSound u := hdriven.of_eq (by rw [hkept.lines]) (by rw [hkept.lines])
          (framer_eq_of_ports hkept.ports)
        exact hu.hold p reply (by rw [hkept.lines, hreset'])
  | none =>
    cases hm : movesShell c with
    | false => exact fun t ht => (exec_sameShell hm s t ht).portsSound hs
    | true =>
      cases c with
      | requestFrameBegin p =>
        exact ends_execRequestFrameBegin p hs fun hreset => hs.withPort p _ hreset fun _ h => by cases h
      | requestFrameEnd p bytes =>
        refine ends_execRequestFrameEnd p bytes hs (fun reply hreset => hs.hold p reply hreset) ?_
        intro r hreset hready hparse
        exact hs.withPort p _ hreset fun r' h => by cases h; exact ⟨hready, parseFrame_port hparse⟩
      | readFrame p began n =>
        refine ends_execReadFrame p began n hs fun x hreset hx => hs.withPort p x hreset fun r hr => ?_
        rcases hx with hx | hx
        · rw [hx] at hr; cases hr
        · rw [hx] at hr
          refine ⟨?_, hs.answering p r hr⟩
          cases hready : s.lines.ready with
          | true => rfl
          | false => exact absurd hr (hs.clearing hready p r)
      | evaluation =>
        refine ends_execEvaluation hs fun q rest t _ _ ht => ?_
        obtain ⟨-, hlines, hports, -⟩ := evaluateReport_shell ht
        exact hs.of_eq (by rw [hlines]) (by rw [hlines]) (framer_eq_of_ports hports)
      | powerOn => exact (ends_next _).mpr (.of_idle fun p => by cases p <;> rfl)
      | resetRelease =>
        exact (ends_next _).mpr ⟨nofun, hs.clearing, hs.answering⟩
      | clearingEnd =>
        simp only [exec, execClearingEnd]
        split
        · exact (ends_next _).mpr hs
        · exact (ends_next _).mpr (.of_idle fun p => by cases p <;> rfl)
      | warmReset =>
        simp only [exec, execWarmReset]
        split
        · exact (ends_next _).mpr hs
        · exact (ends_next _).mpr (.of_idle fun p => by cases p <;> rfl)
      | minuteTick | dayRollover | clockLastMomentStop | deadlineTick | periodCloseStep | rolloutStep | overdueStep
      | attnPulseStart | attnPulseEnd => cases hm
      | _ => cases hr

/-! ### The queues and their tickets (R176 to R179) -/

/-- One ticket more is the number before the advanced counter. -/
theorem ticketsBefore_snoc {counter n : Nat} (hc : counter < 256) (hn : n < 256) :
    ticketsBefore ((counter + 1) % 256) (n + 1) = ticketsBefore counter n ++ [some counter] := by
  unfold ticketsBefore
  rw [List.range_succ, List.map_append, List.map_singleton]
  congr 1
  · refine List.map_congr_left fun i hi => ?_
    have := List.mem_range.mp hi
    congr 1
    omega
  · congr 2
    omega

/-- Without its oldest ticket the run still ends before the counter. -/
theorem ticketsBefore_tail {counter n : Nat} (hn : n < 256) :
    (ticketsBefore counter (n + 1)).tail = ticketsBefore counter n := by
  unfold ticketsBefore
  rw [List.range_succ_eq_map, List.map_cons, List.tail_cons, List.map_map]
  refine List.map_congr_left fun i hi => ?_
  simp only [Function.comp_apply]
  congr 2
  omega

theorem QueuesSound.of_queues_eq {s t : State} (h : QueuesSound s) (e : t.queues = s.queues) : QueuesSound t := by
  have htickets : tickets t = tickets s := by simp only [tickets, e]
  exact ⟨e ▸ h.intake, e ▸ h.verdicts, e ▸ h.counter, by rw [htickets, e]; exact h.consecutive⟩

theorem queuesSound_of_empty {t : State} (h : t.queues = ⟨[], [], 0⟩) : QueuesSound t :=
  ⟨by simp [h], by simp [h], by simp [h], by simp [tickets, h, ticketsBefore]⟩

theorem QueuesSound.tickets_length_le {s : State} (h : QueuesSound s) : (tickets s).length ≤ 48 := by
  have := h.intake; have := h.verdicts
  simp only [tickets, List.length_append, List.length_map]
  omega

theorem QueuesSound.append {s t : State} (h : QueuesSound s) (rep : Report) (hroom : s.queues.intake.length < 24)
    (e : t.queues = { s.queues with
      intake := s.queues.intake ++ [⟨s.queues.ticketCounter, rep⟩]
      ticketCounter := (s.queues.ticketCounter + 1) % 256 }) : QueuesSound t := by
  have htickets : tickets t = tickets s ++ [some s.queues.ticketCounter] := by
    simp only [tickets, e, List.map_append, List.map_singleton, List.append_assoc]
  have hlength := h.tickets_length_le
  refine ⟨by simp [e]; omega, by simpa [e] using h.verdicts, by rw [e]; exact Nat.mod_lt _ (by decide), ?_⟩
  rw [htickets, e, List.length_append, List.length_singleton, ticketsBefore_snoc h.counter (by omega), ← h.consecutive]

theorem QueuesSound.collect {s t : State} (h : QueuesSound s) {v : Verdict} {rest : List Verdict}
    (hv : s.queues.verdicts = v :: rest) (e : t.queues = { s.queues with verdicts := rest }) : QueuesSound t := by
  have htickets : tickets s = v.ticket :: tickets t := by
    simp only [tickets, e, hv, List.map_cons, List.cons_append]
  have hlength := h.tickets_length_le
  have hverdicts := h.verdicts
  have htail := congrArg List.tail h.consecutive
  rw [htickets, List.length_cons] at hlength htail
  rw [hv, List.length_cons] at hverdicts
  refine ⟨by simpa [e] using h.intake, by rw [e]; dsimp only; omega, by rw [e]; exact h.counter, ?_⟩
  rw [List.tail_cons, ticketsBefore_tail (by omega)] at htail
  rw [e]
  exact htail

theorem QueuesSound.evaluate {s t : State} (h : QueuesSound s) {q : QueuedReport} {rest : List QueuedReport}
    {v : Verdict} (hq : s.queues.intake = q :: rest) (hroom : s.queues.verdicts.length < 24)
    (hv : v.ticket = some q.ticket)
    (e : t.queues = { s.queues with intake := rest, verdicts := s.queues.verdicts ++ [v] }) : QueuesSound t := by
  have htickets : tickets t = tickets s := by simp [tickets, e, hq, hv]
  have hintake := h.intake
  rw [hq, List.length_cons] at hintake
  refine ⟨by rw [e]; dsimp only; omega, by simp [e]; omega, by rw [e]; exact h.counter, ?_⟩
  rw [htickets, e]
  exact h.consecutive

theorem exec_queuesSound {c : Instr} {s : State} (hs : QueuesSound s) : Ends QueuesSound (exec c s) := by
  have hhold : ∀ (t : State) (p : Port) (reply : Reply), QueuesSound t → QueuesSound (t.hold p reply) :=
    fun t p reply ht => ht.of_queues_eq (State.hold_queues ..)
  cases hr : c.request with
  | some pr =>
    obtain ⟨p, r⟩ := pr
    cases hw : writesQueues r with
    | false =>
      obtain ⟨block, hexec, hkeeps⟩ := exec_request_keepsShell hr
      have hdriven : QueuesSound (s.driven c) := hs.of_queues_eq (by unfold State.driven; split <;> rfl)
      rw [hexec]
      exact ends_serve hdriven (fun t reply => hhold t p reply) fun t reply ht =>
        hdriven.of_queues_eq ((hkeeps _ t reply ht).queues hw)
    | true =>
      cases c with
      | submit rep =>
        exact ends_serve hs (fun t reply => hhold t _ reply)
          (answers_submitBlock rep hs fun hroom => hs.append (takeIn rep) hroom rfl)
      | collect =>
        exact ends_serve hs (fun t reply => hhold t _ reply)
          (answers_collectBlock hs fun v rest hv => hs.collect hv rfl)
      | _ => cases hr <;> cases hw
  | none =>
    cases hm : movesShell c with
    | false => exact fun t ht => hs.of_queues_eq (exec_sameShell hm s t ht).queues
    | true =>
      cases c with
      | requestFrameBegin p =>
        exact ends_execRequestFrameBegin p hs fun _ => hs.of_queues_eq (State.withFramer_queues ..)
      | requestFrameEnd p bytes =>
        exact ends_execRequestFrameEnd p bytes hs (fun reply _ => hhold s p reply hs)
          fun _ _ _ _ => hs.of_queues_eq (State.withFramer_queues ..)
      | readFrame p began n =>
        exact ends_execReadFrame p began n hs fun _ _ _ => hs.of_queues_eq (State.withPort_queues ..)
      | evaluation =>
        refine ends_execEvaluation hs fun q rest t hq hroom ht => ?_
        obtain ⟨-, -, -, v, hv, hqueues⟩ := evaluateReport_shell ht
        exact hs.evaluate hq hroom hv hqueues
      | powerOn => exact (ends_next _).mpr (queuesSound_of_empty rfl)
      | resetRelease => exact (ends_next _).mpr (hs.of_queues_eq rfl)
      | clearingEnd =>
        simp only [exec, execClearingEnd]
        split
        · exact (ends_next _).mpr hs
        · exact (ends_next _).mpr (queuesSound_of_empty rfl)
      | warmReset =>
        simp only [exec, execWarmReset]
        split
        · exact (ends_next _).mpr hs
        · exact (ends_next _).mpr (queuesSound_of_empty rfl)
      | minuteTick | dayRollover | clockLastMomentStop | deadlineTick | periodCloseStep | rolloutStep | overdueStep
      | attnPulseStart | attnPulseEnd => cases hm
      | _ => cases hr

/-- Settles O54: SUBMIT adds the counter's ticket at the tail, COLLECT takes the oldest, an evaluation moves one from
the intake to the verdicts, a reset empties both queues, and nothing else touches them. -/
theorem queuesStayConsecutive : Obligations.QueuesStayConsecutive := by
  intro s t hs hstep
  rcases step_next_cases hs.pending hstep with ⟨-, rfl⟩ | ⟨c, rest, -, -, hexec⟩
  · exact hs.queues
  · exact exec_queuesSound (s := s.withPending rest) (hs.queues.of_queues_eq rfl) t hexec

end Sys2Proof.Machine
end

section
/-! The proofs of this family: what a write to the pool, the directory, the policies and the lots keeps of the records'
soundness. A lane written over another, a lane made and a lane retired are each treated block by block. -/
namespace Sys2Proof.Machine

/-! ### The records: every block but the queue of commands, the ports and the queues of tickets -/

/-- The part of soundness that speaks of the records. -/
structure RecordsSound (s : State) : Prop where
  pool : PoolSound s
  directory : DirectorySound s
  policies : PoliciesSound s
  lots : LotsSound s
  lanes : LanesSound s
  clock : ClockSound s
  sweeps : SweepsSound s
  list : ListSound s

/-- Two states with the same records. -/
structure SameRecords (s t : State) : Prop where
  store : t.store = s.store
  policies : t.policies = s.policies
  lots : t.lots = s.lots
  clock : t.clock = s.clock
  sweeps : t.sweeps = s.sweeps
  attention : t.attention = s.attention

section
variable {s t : State}

theorem Sound.records (h : Sound s) : RecordsSound s :=
  ⟨h.pool, h.directory, h.policies, h.lots, h.lanes, h.clock, h.sweeps, h.list⟩

theorem lane_of_store_eq (h : t.store = s.store) (n : Nat) : t.lane n = s.lane n := by simp only [State.lane, h]

/-! ### Each block's clause reads only the fields it names -/

theorem PoolSound.of_eq (h : PoolSound s) (e : t.store = s.store) : PoolSound t :=
  ⟨e ▸ h.canonical, e ▸ h.places, e ▸ h.count⟩

theorem DirectorySound.of_eq (h : DirectorySound s) (e : t.store = s.store) : DirectorySound t where
  ascending := e ▸ h.ascending
  count := e ▸ h.count
  capacity := e ▸ h.capacity
  occupied := e ▸ h.occupied
  names := by simpa only [lane_of_store_eq e, e] using h.names
  named := by simpa only [lane_of_store_eq e, e] using h.named

theorem PoliciesSound.of_eq (h : PoliciesSound s) (e : t.store = s.store) (ep : t.policies = s.policies) :
    PoliciesSound t where
  inRange := ep ▸ h.inRange
  count := by simpa only [e, ep] using h.count
  defined := by simpa only [lane_of_store_eq e, ep] using h.defined

theorem LotsSound.of_eq (h : LotsSound s) (e : t.store = s.store) (el : t.lots = s.lots)
    (ee : t.sweeps.engine = s.sweeps.engine) : LotsSound t where
  canonical := el ▸ h.canonical
  count := el ▸ h.count
  capacity := el ▸ h.capacity
  numbers := el ▸ h.numbers
  references := el ▸ h.references
  users := by simpa only [e, el] using h.users
  active := by simpa only [lane_of_store_eq e, el] using h.active
  pendingLot := by simpa only [lane_of_store_eq e, el] using h.pendingLot
  oneCurrent := el ▸ h.oneCurrent
  rolling := by simpa only [el, ee] using h.rolling
  rolled := by simpa only [el, ee] using h.rolled

theorem LanesSound.of_eq (h : LanesSound s) (e : t.store = s.store) : LanesSound t := by
  simpa only [LanesSound, lane_of_store_eq e] using h

theorem ClockSound.of_eq (h : ClockSound s) (e : t.clock = s.clock) : ClockSound t :=
  ⟨e ▸ h.day, e ▸ h.minute, e ▸ h.weekdayBase, e ▸ h.deadline⟩

theorem SweepsSound.of_eq (h : SweepsSound s) (e : t.store = s.store) (es : t.sweeps = s.sweeps) : SweepsSound t where
  cursor := es ▸ h.cursor
  origin := es ▸ h.origin
  pendingOverdue := es ▸ h.pendingOverdue
  period := es ▸ h.period
  tags := by simpa only [lane_of_store_eq e, es] using h.tags

theorem ListSound.of_eq (h : ListSound s) (e : t.store = s.store) (ea : t.attention = s.attention) : ListSound t where
  once := ea ▸ h.once
  length := ea ▸ h.length
  listed := by simpa only [lane_of_store_eq e, ea] using h.listed
  stamped := by simpa only [lane_of_store_eq e] using h.stamped
  owed := ea ▸ h.owed
  level := ea ▸ h.level
  pulse := ea ▸ h.pulse

theorem SameRecords.sound (e : SameRecords s t) (h : RecordsSound s) : RecordsSound t where
  pool := h.pool.of_eq e.store
  directory := h.directory.of_eq e.store
  policies := h.policies.of_eq e.store e.policies
  lots := h.lots.of_eq e.store e.lots (by rw [e.sweeps])
  lanes := h.lanes.of_eq e.store
  clock := h.clock.of_eq e.clock
  sweeps := h.sweeps.of_eq e.store e.sweeps
  list := h.list.of_eq e.store e.attention

theorem RecordsSound.hold (h : RecordsSound s) (p : Port) (reply : Reply) : RecordsSound (s.hold p reply) :=
  SameRecords.sound ⟨State.hold_store .., State.hold_policies .., State.hold_lots .., State.hold_clock ..,
    State.hold_sweeps .., State.hold_attention ..⟩ h

theorem RecordsSound.withPort (h : RecordsSound s) (p : Port) (x : PortState) : RecordsSound (s.withPort p x) :=
  SameRecords.sound ⟨State.withPort_store .., State.withPort_policies .., State.withPort_lots ..,
    State.withPort_clock .., State.withPort_sweeps .., State.withPort_attention ..⟩ h

/-! ### The pool as a table -/

theorem PoolSound.place_lt (h : PoolSound s) {n : Nat} {l : Lane} (hl : s.lane n = some l) : n < 1536 :=
  h.places _ (Table.mem_of_find hl)

/-- A lane that has a property is counted by it. -/
theorem countP_pos_of_lane {n : Nat} {l : Lane} (p : Nat × Lane → Bool) (hl : s.lane n = some l)
    (hp : p (n, l) = true) : 0 < s.store.pool.countP p :=
  List.countP_pos_iff.mpr ⟨_, Table.mem_of_find hl, hp⟩

/-! ### The directory as a map from stores to slots (R7) -/

/-- The Site Directory's soundness, in terms of the slots read for each store. -/
structure DirectoryMaps (s : State) : Prop where
  ascending : Ascending s.store.directory
  count : s.store.siteCount = s.store.directory.length
  capacity : s.store.directory.length ≤ 512
  occupied : ∀ b x, siteSlots b s.store.directory = some x → x ≠ Slots.vacant
  names : ∀ b x i n, siteSlots b s.store.directory = some x → x.get i = some n →
    ∃ l, s.lane n = some l ∧ l.store = b ∧ l.slot = i
  named : ∀ n l, s.lane n = some l → ∃ x, siteSlots l.store s.store.directory = some x ∧ x.get l.slot = some n

theorem DirectorySound.maps (h : DirectorySound s) : DirectoryMaps s where
  ascending := h.ascending
  count := h.count
  capacity := h.capacity
  occupied b x hx := by
    obtain ⟨e, he, -, rfl⟩ := siteSlots_mem hx
    exact h.occupied e he
  names b x i n hx hn := by
    obtain ⟨e, he, rfl, rfl⟩ := siteSlots_mem hx
    exact h.names e he i n hn
  named n l hl := by
    obtain ⟨e, he, hs, hn⟩ := h.named n l hl
    exact ⟨e.slots, hs ▸ siteSlots_of_mem h.ascending he, hn⟩

theorem DirectoryMaps.sound (h : DirectoryMaps s) : DirectorySound s where
  ascending := h.ascending
  count := h.count
  capacity := h.capacity
  occupied e he := h.occupied e.store e.slots (siteSlots_of_mem h.ascending he)
  names e he i n hn := h.names e.store e.slots i n (siteSlots_of_mem h.ascending he) hn
  named n l hl := by
    obtain ⟨x, hx, hn⟩ := h.named n l hl
    obtain ⟨e, he, hs, rfl⟩ := siteSlots_mem hx
    exact ⟨e, he, hs, hn⟩

/-! ### The lots a lane names, and the counts of users (R43) -/

/-- Whether a lane names a lot, as its active or as its pending lot. -/
def Lane.uses (l : Lane) (n : Nat) : Bool := decide (l.activeLot = n) || decide (l.pendingLot = some n)

/-- A lane's two lots are distinct, in the table and of the lane's type. -/
structure NamesLots (t : Table Lot) (l : Lane) : Prop where
  active : ∃ e, Table.find l.activeLot t = some e ∧ e.type = l.type
  pendingLot : ∀ p, l.pendingLot = some p → p ≠ l.activeLot ∧ ∃ e, Table.find p t = some e ∧ e.type = l.type

theorem LotsSound.names (h : LotsSound s) {n : Nat} {l : Lane} (hl : s.lane n = some l) :
    NamesLots s.lots.entries l :=
  ⟨h.active n l hl, fun p => h.pendingLot n l p hl⟩

theorem NamesLots.uses_toNat {t : Table Lot} {l : Lane} (h : NamesLots t l) (m : Nat) :
    (l.uses m).toNat = (if m = l.activeLot then 1 else 0) + if l.pendingLot = some m then 1 else 0 := by
  by_cases hp : l.pendingLot = some m
  · have hne := (h.pendingLot m hp).1
    simp [Lane.uses, hp, hne, hne.symm]
  · simp [Lane.uses, hp, eq_comm, Bool.toNat, Bool.cond_decide]

/-- The lots with their user counts rewritten, each by its number and the count it had. -/
def recount (f : Nat → Nat → Nat) (t : Table Lot) : Table Lot :=
  t.map fun e => (e.1, { e.2 with users := f e.1 e.2.users })

theorem find_recount (f : Nat → Nat → Nat) (m : Nat) (t : Table Lot) :
    Table.find m (recount f t) = (Table.find m t).map fun e => { e with users := f m e.users } :=
  Table.find_map (fun e : Nat × Lot => { e.2 with users := f e.1 e.2.users }) m t

theorem wf_recount (f : Nat → Nat → Nat) {t : Table Lot} (h : Table.wf t) : Table.wf (recount f t) :=
  Table.wf_map (fun e : Nat × Lot => (e.1, { e.2 with users := f e.1 e.2.users })) (fun _ => rfl) t h

@[simp] theorem length_recount (f : Nat → Nat → Nat) (t : Table Lot) : (recount f t).length = t.length :=
  List.length_map ..

theorem recount_recount (f g : Nat → Nat → Nat) (t : Table Lot) :
    recount f (recount g t) = recount (fun m u => f m (g m u)) t := by
  simp [recount, List.map_map, Function.comp_def]

theorem recount_eq_self {f : Nat → Nat → Nat} (hf : ∀ m u, f m u = u) (t : Table Lot) : recount f t = t := by
  simp [recount, hf]

theorem addUser_eq_recount (n : Nat) (t : Table Lot) :
    addUser n t = recount (fun m u => u + if m = n then 1 else 0) t := by
  unfold addUser Table.modify recount
  refine List.map_congr_left fun e _ => ?_
  split <;> simp_all

theorem dropUser_eq_recount (n : Nat) (t : Table Lot) :
    dropUser n t = recount (fun m u => u - if m = n then 1 else 0) t := by
  unfold dropUser Table.modify recount
  refine List.map_congr_left fun e _ => ?_
  split <;> simp_all

theorem dropUser?_eq_recount (n : Option Nat) (t : Table Lot) :
    dropUser? n t = recount (fun m u => u - if n = some m then 1 else 0) t := by
  cases n with
  | none => exact (recount_eq_self (fun m u => by simp) t).symm
  | some n =>
    rw [dropUser?, dropUser_eq_recount]
    simp only [Option.some.injEq, eq_comm]

theorem addUser?_eq_recount (n : Option Nat) (t : Table Lot) :
    (match n with | none => t | some p => addUser p t) = recount (fun m u => u + if n = some m then 1 else 0) t := by
  cases n with
  | none => exact (recount_eq_self (fun m u => by simp) t).symm
  | some n =>
    dsimp only
    rw [addUser_eq_recount]
    simp only [Option.some.injEq, eq_comm]

theorem find_recount_some {f : Nat → Nat → Nat} {m : Nat} {t : Table Lot} {e' : Lot}
    (h : Table.find m (recount f t) = some e') :
    ∃ e, Table.find m t = some e ∧ e' = { e with users := f m e.users } := by
  rw [find_recount] at h
  obtain ⟨e, he, rfl⟩ := Option.map_eq_some_iff.mp h
  exact ⟨e, he, rfl⟩

theorem NamesLots.recount {t : Table Lot} {l : Lane} (h : NamesLots t l) (f : Nat → Nat → Nat) :
    NamesLots (recount f t) l where
  active := by
    obtain ⟨e, he, ht⟩ := h.active
    exact ⟨{ e with users := f l.activeLot e.users }, by rw [find_recount, he]; rfl, ht⟩
  pendingLot p hp := by
    obtain ⟨hne, e, he, ht⟩ := h.pendingLot p hp
    exact ⟨hne, { e with users := f p e.users }, by rw [find_recount, he]; rfl, ht⟩

/-- The Lot Table stays sound when only user counts are rewritten, each to the number of lanes that then name the
lot, and those lanes name lots as they must. -/
theorem LotsSound.of_recount (h : LotsSound s) {f : Nat → Nat → Nat}
    (hentries : t.lots.entries = Machine.recount f s.lots.entries) (hcount : t.lots.count = s.lots.count)
    (hengine : t.sweeps.engine = s.sweeps.engine)
    (husers : ∀ m e, Table.find m s.lots.entries = some e → f m e.users = t.store.pool.countP fun x => x.2.uses m)
    (hnames : ∀ n l, t.lane n = some l → NamesLots s.lots.entries l) : LotsSound t where
  canonical := by rw [hentries]; exact wf_recount f h.canonical
  count := by rw [hcount, hentries, length_recount]; exact h.count
  capacity := by rw [hentries, length_recount]; exact h.capacity
  numbers n e he := by
    rw [hentries] at he
    obtain ⟨e₀, he₀, -⟩ := find_recount_some he
    exact h.numbers n e₀ he₀
  references n e he := by
    rw [hentries] at he
    obtain ⟨e₀, he₀, rfl⟩ := find_recount_some he
    exact h.references n e₀ he₀
  users n e he := by
    rw [hentries] at he
    obtain ⟨e₀, he₀, rfl⟩ := find_recount_some he
    exact husers n e₀ he₀
  active n l hl := by rw [hentries]; exact ((hnames n l hl).recount f).active
  pendingLot n l p hl hp := by rw [hentries]; exact ((hnames n l hl).recount f).pendingLot p hp
  oneCurrent a b x y hx hy h1 h2 h3 := by
    rw [hentries] at hx hy
    obtain ⟨x₀, hx₀, rfl⟩ := find_recount_some hx
    obtain ⟨y₀, hy₀, rfl⟩ := find_recount_some hy
    exact h.oneCurrent a b x₀ y₀ hx₀ hy₀ h1 h2 h3
  rolling n e he := by
    rw [hentries] at he
    obtain ⟨e₀, he₀, rfl⟩ := find_recount_some he
    rw [hengine]
    exact h.rolling n e₀ he₀
  rolled w n hw hk := by
    rw [hengine] at hw
    rw [hentries, find_recount, Option.isSome_map]
    exact h.rolled w n hw hk

/-! ### A lane written over another -/

/-- The lane store of `t` is that of `s` with the lane `l'` in the place `n` of the lane `l`. -/
structure Rewrites (n : Nat) (l l' : Lane) (s t : State) : Prop where
  was : s.lane n = some l
  store : t.store = { s.store with pool := Table.put n l' s.store.pool }

theorem Rewrites.putLane {n : Nat} {l : Lane} (hl : s.lane n = some l) (l' : Lane) :
    Rewrites n l l' s (s.putLane n l') := ⟨hl, rfl⟩

section
variable {n : Nat} {l l' : Lane}

theorem Rewrites.lane (w : Rewrites n l l' s t) (m : Nat) : t.lane m = if m = n then some l' else s.lane m := by
  rw [State.lane, w.store]
  exact Table.find_put n m l' s.store.pool

/-- What is known of every lane of before but the one rewritten, and of the new lane, is known of every lane. -/
theorem Rewrites.forall_lane {P : Nat → Lane → Prop} (w : Rewrites n l l' s t)
    (hold : ∀ m x, m ≠ n → s.lane m = some x → P m x) (hnew : P n l') (m : Nat) (x : Lane) (hx : t.lane m = some x) :
    P m x := by
  rw [w.lane] at hx
  split at hx
  · rename_i hm
    cases hx
    exact hm ▸ hnew
  · rename_i hm
    exact hold m x hm hx

/-- A count of lanes loses the old lane's share and gains the new lane's. -/
theorem Rewrites.countP (w : Rewrites n l l' s t) (hwf : Table.wf s.store.pool) (p : Lane → Bool) :
    (t.store.pool.countP fun x => p x.2) + (p l).toNat = (s.store.pool.countP fun x => p x.2) + (p l').toNat := by
  have hfind : Table.find n s.store.pool = some l := w.was
  have := Table.countP_put (fun x : Nat × Lane => p x.2) n l' s.store.pool hwf
  rw [hfind] at this
  rw [w.store]
  exact this

theorem PoolSound.rewrite (h : PoolSound s) (w : Rewrites n l l' s t) : PoolSound t where
  canonical := by rw [w.store]; exact Table.wf_put _ _ _ h.canonical
  places := by
    rw [w.store]
    intro e he
    rcases Table.mem_put he with rfl | he
    · exact h.place_lt w.was
    · exact h.places e he
  count := by
    rw [w.store]
    exact h.count.trans (Table.length_put_old n l' l _ h.canonical w.was).symm

theorem DirectorySound.rewrite (h : DirectorySound s) (w : Rewrites n l l' s t) (hstore : l'.store = l.store)
    (hslot : l'.slot = l.slot) : DirectorySound t := by
  have hdirectory : t.store.directory = s.store.directory := by rw [w.store]
  refine ⟨by rw [hdirectory]; exact h.ascending, by rw [w.store]; exact h.count,
    by rw [hdirectory]; exact h.capacity, by rw [hdirectory]; exact h.occupied, ?_, ?_⟩
  case refine_1 =>
    intro e he i m hm
    rw [hdirectory] at he
    obtain ⟨x, hx, hs, hi⟩ := h.names e he i m hm
    rw [w.lane]
    split
    · rename_i hmn
      subst hmn
      rw [w.was] at hx
      cases hx
      exact ⟨l', rfl, hstore.trans hs, hslot.trans hi⟩
    · exact ⟨x, hx, hs, hi⟩
  case refine_2 =>
    rw [hdirectory]
    exact w.forall_lane (fun m x _ hx => h.named m x hx) (by rw [hstore, hslot]; exact h.named n l w.was)

theorem PoliciesSound.rewrite (h : PoliciesSound s) (hpool : PoolSound s) (w : Rewrites n l l' s t)
    (hpolicies : t.policies = s.policies) (htype : l'.type = l.type) : PoliciesSound t where
  inRange := hpolicies ▸ h.inRange
  count u := by
    have hcounts := w.countP hpool.canonical fun x => decide (x.type = u)
    rw [htype] at hcounts
    rw [hpolicies, h.count u]
    exact (Nat.add_right_cancel hcounts).symm
  defined := by
    rw [hpolicies]
    exact w.forall_lane (fun m x _ hx => h.defined m x hx) (by rw [htype]; exact h.defined n l w.was)

/-- The Lot Table stays sound when a lane moves among its lots and the user counts move with it. -/
theorem LotsSound.rewrite (h : LotsSound s) (hpool : PoolSound s) (w : Rewrites n l l' s t) {f : Nat → Nat → Nat}
    (hentries : t.lots.entries = Machine.recount f s.lots.entries) (hcount : t.lots.count = s.lots.count)
    (hengine : t.sweeps.engine = s.sweeps.engine)
    (husers : ∀ m u, (l.uses m).toNat ≤ u → f m u + (l.uses m).toNat = u + (l'.uses m).toNat)
    (hnames : NamesLots s.lots.entries l') : LotsSound t := by
  refine h.of_recount hentries hcount hengine (fun m e he => ?_) (w.forall_lane (fun m x _ hx => h.names hx) hnames)
  have hcounts := w.countP hpool.canonical (Lane.uses · m)
  have hbefore : e.users = s.store.pool.countP fun x => x.2.uses m := h.users m e he
  have hshare : (l.uses m).toNat ≤ e.users := by
    rw [hbefore]
    cases hu : l.uses m with
    | false => exact Nat.zero_le _
    | true => exact countP_pos_of_lane (fun x => x.2.uses m) w.was hu
  have := husers m e.users hshare
  omega

theorem LotsSound.rewrite_same (h : LotsSound s) (hpool : PoolSound s) (w : Rewrites n l l' s t)
    (hlots : t.lots = s.lots) (hengine : t.sweeps.engine = s.sweeps.engine) (htype : l'.type = l.type)
    (hactive : l'.activeLot = l.activeLot) (hpending : l'.pendingLot = l.pendingLot) : LotsSound t := by
  refine h.rewrite hpool w (f := fun _ u => u) (by rw [hlots, recount_eq_self fun _ _ => rfl]) (by rw [hlots]) hengine
    (fun m u _ => by simp only [Lane.uses, hactive, hpending]) ?_
  have hnames := h.names w.was
  exact ⟨by rw [hactive, htype]; exact hnames.active, by rw [hactive, hpending, htype]; exact hnames.pendingLot⟩

theorem LanesSound.rewrite (h : LanesSound s) (w : Rewrites n l l' s t) (hrange : LaneInRange l') : LanesSound t :=
  w.forall_lane (fun m x _ hx => h m x hx) hrange

theorem SweepsSound.rewrite (h : SweepsSound s) (w : Rewrites n l l' s t) (hsweeps : t.sweeps = s.sweeps)
    (htag : l'.periodTag = l.periodTag ∨ l'.periodTag = s.sweeps.periodNumber) : SweepsSound t where
  cursor := hsweeps ▸ h.cursor
  origin := hsweeps ▸ h.origin
  pendingOverdue := hsweeps ▸ h.pendingOverdue
  period := hsweeps ▸ h.period
  tags := by
    rw [hsweeps]
    refine w.forall_lane (fun m x _ hx => h.tags m x hx) ?_
    rcases htag with htag | htag
    · rw [htag]; exact h.tags n l w.was
    · exact .inl htag

theorem ListSound.rewrite (h : ListSound s) (w : Rewrites n l l' s t) (hattention : t.attention = s.attention)
    (hcauses : l'.causes = .empty ↔ l.causes = .empty) (hjoined : l'.joined = l.joined) : ListSound t where
  once := hattention ▸ h.once
  length := hattention ▸ h.length
  listed m := by
    rw [hattention, h.listed m, w.lane]
    split
    · rename_i hm
      subst hm
      simp [w.was, hcauses]
    · rfl
  stamped := w.forall_lane (fun m x _ hx => h.stamped m x hx) (by rw [hjoined, ne_eq, hcauses]; exact h.stamped n l w.was)
  owed := hattention ▸ h.owed
  level := hattention ▸ h.level
  pulse := hattention ▸ h.pulse

/-- What a lane keeps through every event but its making and its retirement. -/
structure Lane.SameIdentity (l l' : Lane) : Prop where
  store : l'.store = l.store
  slot : l'.slot = l.slot
  type : l'.type = l.type

/-- The records stay sound when a lane is rewritten in range, with the Lot Table and the Attention List sound
afterwards. -/
theorem RecordsSound.rewrite (h : RecordsSound s) (w : Rewrites n l l' s t) (hidentity : l.SameIdentity l')
    (hrange : LaneInRange l') (htag : l'.periodTag = l.periodTag ∨ l'.periodTag = s.sweeps.periodNumber)
    (hpolicies : t.policies = s.policies) (hclock : t.clock = s.clock) (hsweeps : t.sweeps = s.sweeps)
    (hlots : LotsSound t) (hlist : ListSound t) : RecordsSound t where
  pool := h.pool.rewrite w
  directory := h.directory.rewrite w hidentity.store hidentity.slot
  policies := h.policies.rewrite h.pool w hpolicies hidentity.type
  lots := hlots
  lanes := h.lanes.rewrite w hrange
  clock := h.clock.of_eq hclock
  sweeps := h.sweeps.rewrite w hsweeps htag
  list := hlist

/-- What a lane keeps in an event that moves neither its lots nor its causes nor its period tag. -/
structure Lane.SameTies (l l' : Lane) : Prop extends Lane.SameIdentity l l' where
  activeLot : l'.activeLot = l.activeLot
  pendingLot : l'.pendingLot = l.pendingLot
  causes : l'.causes = l.causes
  joined : l'.joined = l.joined

theorem RecordsSound.putLane (h : RecordsSound s) (hl : s.lane n = some l) (hties : l.SameTies l')
    (htag : l'.periodTag = l.periodTag ∨ l'.periodTag = s.sweeps.periodNumber) (hrange : LaneInRange l') :
    RecordsSound (s.putLane n l') :=
  have w := Rewrites.putLane hl l'
  h.rewrite w hties.toSameIdentity hrange htag rfl rfl rfl
    (h.lots.rewrite_same h.pool w rfl rfl hties.type hties.activeLot hties.pendingLot)
    (h.list.rewrite w rfl (by rw [hties.causes]) hties.joined)

end

/-! ### A raised cause (R161) -/

theorem LaneInRange.withCauses {l : Lane} (h : LaneInRange l) (m : Causes) (j : Option JoinStamp) :
    LaneInRange { l with causes := m, joined := j } := { h with }

theorem AttentionList.owe_pulsesOwed_le {a : AttentionList} (h : a.pulsesOwed ≤ 255) : a.owe.pulsesOwed ≤ 255 := by
  unfold AttentionList.owe
  split
  · exact h
  · exact Nat.min_le_right ..

theorem AttentionList.owe_pulsesOwed_of_level {a : AttentionList} (h : a.mode = .level) :
    a.owe.pulsesOwed = a.pulsesOwed := by
  simp [AttentionList.owe, h]

theorem AttentionList.owe_pulsesOwed_pos {a : AttentionList} (h : 0 < a.pulsesOwed) : 0 < a.owe.pulsesOwed := by
  unfold AttentionList.owe
  split
  · exact h
  · dsimp only; omega

/-- One pulse more keeps the list sound. -/
theorem ListSound.owe (h : ListSound s) (e : t.store = s.store) (ha : t.attention = s.attention.owe) : ListSound t where
  once := by simpa [ha] using h.once
  length := by simpa [ha] using h.length
  listed := by simpa [ha, lane_of_store_eq e] using h.listed
  stamped := by simpa [lane_of_store_eq e] using h.stamped
  owed := by rw [ha]; exact AttentionList.owe_pulsesOwed_le h.owed
  level := by
    rw [ha, AttentionList.owe_mode]
    intro hm
    rw [AttentionList.owe_pulsesOwed_of_level hm]
    exact h.level hm
  pulse := by
    rw [ha, AttentionList.owe_pulseInProgress]
    intro hp
    exact AttentionList.owe_pulsesOwed_pos (h.pulse hp)

/-- A lane with no cause joins with one: it is listed at the tail and stamped. -/
theorem ListSound.join (h : ListSound s) {n : Nat} {l : Lane} {m : Causes} {j : JoinStamp}
    (w : Rewrites n l { l with causes := m, joined := some j } s t) (hl : l.causes = .empty) (hm : m ≠ .empty)
    (ha : t.attention = s.attention.join n) : ListSound t where
  once := by
    rw [ha, AttentionList.join_order]
    refine List.nodup_append.mpr ⟨h.once, by simp, fun a hmem b hb => ?_⟩
    rw [List.mem_singleton.mp hb]
    rintro rfl
    obtain ⟨x, hx, hne⟩ := (h.listed _).mp hmem
    rw [w.was] at hx
    cases hx
    exact hne hl
  length := by simpa [ha] using h.length
  listed k := by
    rw [ha, AttentionList.join_order, List.mem_append, List.mem_singleton, h.listed k, w.lane]
    split
    · rename_i hk
      simp [hk, hm]
    · rename_i hk
      simp [hk]
  stamped := w.forall_lane (fun k x _ hx => h.stamped k x hx) (by simp [hm])
  owed := by rw [ha]; exact AttentionList.owe_pulsesOwed_le h.owed
  level := by
    rw [ha, AttentionList.join_mode]
    intro hmode
    have hkept : (s.attention.join n).pulsesOwed = s.attention.pulsesOwed :=
      AttentionList.owe_pulsesOwed_of_level hmode
    rw [hkept]
    exact h.level hmode
  pulse := by
    rw [ha, AttentionList.join_pulseInProgress]
    intro hp
    exact AttentionList.owe_pulsesOwed_pos (h.pulse hp)

theorem RecordsSound.raise (h : RecordsSound s) (mask : Causes) (n : Nat) (c : Cause) :
    RecordsSound (s.raise mask n c) := by
  rcases raise_cases s mask n c with e | ⟨l, hl, hempty, e⟩ | ⟨l, hl, hne, e⟩ <;> rw [e]
  · exact h
  · have w : Rewrites n l { l with causes := l.causes.add c, joined := some ⟨s.clock.day, s.clock.minute⟩ } s _ :=
      .putLane hl _
    refine RecordsSound.rewrite (t := (s.putLane n _).withAttention _) h ⟨w.was, w.store⟩ ⟨rfl, rfl, rfl⟩
      ((h.lanes n l hl).withCauses _ _) (.inl rfl) rfl rfl rfl
      (h.lots.rewrite_same h.pool ⟨w.was, w.store⟩ rfl rfl rfl rfl rfl)
      (h.list.join ⟨w.was, w.store⟩ hempty (Causes.add_ne_empty _ _) rfl)
  · have w : Rewrites n l { l with causes := l.causes.add c } s _ := .putLane hl _
    exact h.rewrite w ⟨rfl, rfl, rfl⟩ ((h.lanes n l hl).withCauses _ _) (.inl rfl) rfl rfl rfl
      (h.lots.rewrite_same h.pool w rfl rfl rfl rfl rfl)
      (h.list.rewrite w rfl ⟨fun h => absurd h (Causes.add_ne_empty _ _), fun h => absurd h hne⟩ rfl)

theorem RecordsSound.raiseAll (h : RecordsSound s) (mask : Causes) (n : Nat) (cs : List Cause) :
    RecordsSound (s.raiseAll mask n cs) :=
  raiseAll_induction (motive := RecordsSound) mask n (fun _ c ht => ht.raise mask n c) cs s h

/-! ### A lane made (R13) -/

@[simp] theorem State.addLane_pool (n : Nat) (l : Lane) :
    (s.addLane n l).store.pool = Table.put n l s.store.pool := rfl
@[simp] theorem State.addLane_occupiedLanes (n : Nat) (l : Lane) :
    (s.addLane n l).store.occupiedLanes = s.store.occupiedLanes + 1 := rfl
@[simp] theorem State.addLane_policies (n : Nat) (l : Lane) : (s.addLane n l).policies = s.policies.put l.type
    { s.policies.get l.type with laneCount := (s.policies.get l.type).laneCount + 1 } := rfl
@[simp] theorem State.addLane_lotCount (n : Nat) (l : Lane) : (s.addLane n l).lots.count = s.lots.count := rfl

theorem State.addLane_lots (n : Nat) (l : Lane) : (s.addLane n l).lots.entries =
    recount (fun m u => u + (if m = l.activeLot then 1 else 0) + if l.pendingLot = some m then 1 else 0)
      s.lots.entries := by
  refine (addUser?_eq_recount l.pendingLot (addUser l.activeLot s.lots.entries)).trans ?_
  rw [addUser_eq_recount, recount_recount]

theorem addLane_lane (n m : Nat) (l : Lane) : (s.addLane n l).lane m = if m = n then some l else s.lane m :=
  Table.find_put n m l s.store.pool

/-- The policy record of a type after one more or one fewer lane of a type. -/
theorem PerType.get_put_eq_ite {α : Type} (x : PerType α) (t u : ProcessType) (a : α) :
    (x.put t a).get u = if u = t then a else x.get u := by
  split
  · rename_i h; rw [h, PerType.get_put]
  · rename_i h; exact PerType.get_put_ne _ _ _ _ (Ne.symm h)

section
variable {n : Nat} {l : Lane}

theorem addLane_forall_lane {P : Nat → Lane → Prop} (hold : ∀ m x, s.lane m = some x → P m x) (hnew : P n l) (m : Nat)
    (x : Lane) (hx : (s.addLane n l).lane m = some x) : P m x := by
  rw [addLane_lane] at hx
  split at hx
  · rename_i hm
    cases hx
    exact hm ▸ hnew
  · exact hold m x hx

theorem addLane_countP (h : PoolSound s) (hfree : s.lane n = none) (p : Lane → Bool) :
    ((s.addLane n l).store.pool.countP fun x => p x.2) = (s.store.pool.countP fun x => p x.2) + (p l).toNat := by
  have hfind : Table.find n s.store.pool = none := hfree
  have := Table.countP_put (fun x : Nat × Lane => p x.2) n l s.store.pool h.canonical
  rw [hfind] at this
  exact this

theorem PoolSound.addLane (h : PoolSound s) (hfree : s.lane n = none) (hn : n < 1536) : PoolSound (s.addLane n l) where
  canonical := Table.wf_put _ _ _ h.canonical
  places e he := by
    rcases Table.mem_put he with rfl | he
    · exact hn
    · exact h.places e he
  count := by
    rw [State.addLane_occupiedLanes, h.count]
    exact (Table.length_put_new n l _ h.canonical hfree).symm

theorem DirectoryMaps.addLane (h : DirectoryMaps s) (hfree : s.lane n = none)
    (hslot : ((siteSlots l.store s.store.directory).bind fun x => x.get l.slot) = none)
    (hroom : siteSlots l.store s.store.directory = none → s.store.directory.length < 512) :
    DirectoryMaps (s.addLane n l) := by
  obtain ⟨hascending, hown, hothers, hnew, hlength⟩ := nameSlot_spec l.store l.slot n _ h.ascending
  have hkept : ∀ i m, i ≠ l.slot → ((((siteSlots l.store s.store.directory).getD Slots.vacant).put l.slot
      (some n)).get i = some m ↔ ∃ x, siteSlots l.store s.store.directory = some x ∧ x.get i = some m) := by
    intro i m hi
    rw [Slots.get_put_ne _ _ _ _ (Ne.symm hi)]
    cases hs : siteSlots l.store s.store.directory with
    | none => simp [(Slots.eq_vacant_iff Slots.vacant).mp rfl i]
    | some x => simp
  have hfresh : ∀ m x, s.lane m = some x → m ≠ n := by
    rintro m x hx rfl
    rw [hfree] at hx
    cases hx
  constructor
  case ascending => exact hascending
  case count =>
    rw [State.addLane_siteCount, State.addLane_directory, hlength, hnew, h.count]
    split <;> rfl
  case capacity =>
    rw [State.addLane_directory, hlength]
    cases hs : siteSlots l.store s.store.directory with
    | none => have := hroom hs; simp; omega
    | some x => simpa using h.capacity
  case occupied =>
    intro b x hx
    rw [State.addLane_directory] at hx
    by_cases hb : b = l.store
    · subst hb
      rw [hown] at hx
      cases hx
      intro hv
      have := (Slots.eq_vacant_iff _).mp hv l.slot
      rw [Slots.get_put] at this
      cases this
    · rw [hothers b hb] at hx
      exact h.occupied b x hx
  case names =>
    intro b x i m hx hm
    rw [State.addLane_directory] at hx
    have hold : (∃ y, siteSlots b s.store.directory = some y ∧ y.get i = some m) →
        ∃ y, (s.addLane n l).lane m = some y ∧ y.store = b ∧ y.slot = i := by
      rintro ⟨y, hy, hym⟩
      obtain ⟨z, hz, hzs⟩ := h.names b y i m hy hym
      exact ⟨z, by rw [addLane_lane, if_neg (hfresh m z hz), hz], hzs⟩
    by_cases hb : b = l.store
    · subst hb
      rw [hown] at hx
      cases hx
      by_cases hi : i = l.slot
      · subst hi
        rw [Slots.get_put] at hm
        cases hm
        exact ⟨l, by rw [addLane_lane, if_pos rfl], rfl, rfl⟩
      · exact hold ((hkept i m hi).mp hm)
    · rw [hothers b hb] at hx
      exact hold ⟨x, hx, hm⟩
  case named =>
    refine addLane_forall_lane (fun m x hx => ?_) ⟨_, hown, Slots.get_put ..⟩
    obtain ⟨y, hy, hym⟩ := h.named m x hx
    rw [State.addLane_directory]
    by_cases hb : x.store = l.store
    · rw [hb] at hy ⊢
      have hi : x.slot ≠ l.slot := by
        intro hi
        rw [hy, Option.bind_some, ← hi, hym] at hslot
        cases hslot
      exact ⟨_, hown, (hkept x.slot m hi).mpr ⟨y, hy, hym⟩⟩
    · exact ⟨y, by rw [hothers _ hb, hy], hym⟩

theorem PoliciesSound.addLane (h : PoliciesSound s) (hpool : PoolSound s) (hfree : s.lane n = none)
    (hdefined : (s.policies.get l.type).policy ≠ none) : PoliciesSound (s.addLane n l) where
  inRange u p hp := by
    rw [State.addLane_policies, PerType.get_put_eq_ite] at hp
    split at hp
    · exact h.inRange _ p hp
    · exact h.inRange u p hp
  count u := by
    have hcounts := addLane_countP (l := l) hpool hfree fun x => decide (x.type = u)
    have hbefore := h.count u
    have hafter : ((s.addLane n l).policies.get u).laneCount =
        (s.policies.get u).laneCount + (decide (l.type = u)).toNat := by
      rw [State.addLane_policies, PerType.get_put_eq_ite]
      split
      · rename_i hu; subst hu; simp
      · rename_i hu; simp [Ne.symm hu]
    rw [hafter, hbefore]
    exact hcounts.symm
  defined := by
    have hkept : ∀ u, ((s.addLane n l).policies.get u).policy = (s.policies.get u).policy := by
      intro u
      rw [State.addLane_policies, PerType.get_put_eq_ite]
      split
      · rename_i hu; rw [hu]
      · rfl
    refine addLane_forall_lane (fun m x hx => ?_) ?_
    · rw [hkept]; exact h.defined m x hx
    · rw [hkept]; exact Option.isSome_iff_ne_none.mpr hdefined

theorem LotsSound.addLane (h : LotsSound s) (hpool : PoolSound s) (hfree : s.lane n = none)
    (hnames : NamesLots s.lots.entries l) : LotsSound (s.addLane n l) := by
  refine h.of_recount (State.addLane_lots n l) rfl rfl (fun m e he => ?_)
    (addLane_forall_lane (fun _ _ hx => h.names hx) hnames)
  have hcounts := addLane_countP (l := l) hpool hfree (Lane.uses · m)
  have hbefore : e.users = s.store.pool.countP fun x => x.2.uses m := h.users m e he
  have hshare := hnames.uses_toNat m
  omega

theorem ListSound.addLane (h : ListSound s) (hfree : s.lane n = none) (hcauses : l.causes = .empty)
    (hjoined : l.joined = none) : ListSound (s.addLane n l) where
  once := h.once
  length := h.length
  listed m := by
    rw [State.addLane_attention, h.listed m, addLane_lane]
    split
    · rename_i hm
      subst hm
      simp [hfree, hcauses]
    · rfl
  stamped := addLane_forall_lane h.stamped (by simp [hcauses, hjoined])
  owed := h.owed
  level := h.level
  pulse := h.pulse

/-- The records stay sound when a lane is made in a vacant place and an empty slot, of a type with a policy, with lots
of its type, in range and with no cause. -/
theorem RecordsSound.addLane (h : RecordsSound s) (hfree : s.lane n = none) (hn : n < 1536)
    (hslot : ((siteSlots l.store s.store.directory).bind fun x => x.get l.slot) = none)
    (hroom : siteSlots l.store s.store.directory = none → s.store.directory.length < 512)
    (hdefined : (s.policies.get l.type).policy ≠ none) (hnames : NamesLots s.lots.entries l) (hrange : LaneInRange l)
    (htag : l.periodTag = s.sweeps.periodNumber) (hcauses : l.causes = .empty) (hjoined : l.joined = none) :
    RecordsSound (s.addLane n l) where
  pool := h.pool.addLane hfree hn
  directory := (h.directory.maps.addLane hfree hslot hroom).sound
  policies := h.policies.addLane h.pool hfree hdefined
  lots := h.lots.addLane h.pool hfree hnames
  lanes := addLane_forall_lane h.lanes hrange
  clock := h.clock.of_eq rfl
  sweeps := ⟨h.sweeps.cursor, h.sweeps.origin, h.sweeps.pendingOverdue, h.sweeps.period,
    addLane_forall_lane h.sweeps.tags (.inl htag)⟩
  list := h.list.addLane hfree hcauses hjoined

end

/-! ### A lane retired (R19) -/

@[simp] theorem State.retire_pool (n : Nat) (l : Lane) : (s.retire n l).1.store.pool = Table.drop n s.store.pool := rfl
@[simp] theorem State.retire_occupiedLanes (n : Nat) (l : Lane) :
    (s.retire n l).1.store.occupiedLanes = s.store.occupiedLanes - 1 := rfl
@[simp] theorem State.retire_directory (n : Nat) (l : Lane) :
    (s.retire n l).1.store.directory = (emptySlot l.store l.slot s.store.directory).1 := rfl
@[simp] theorem State.retire_siteCount (n : Nat) (l : Lane) : (s.retire n l).1.store.siteCount =
    if (emptySlot l.store l.slot s.store.directory).2 then s.store.siteCount - 1 else s.store.siteCount := rfl
@[simp] theorem State.retire_removed (n : Nat) (l : Lane) :
    (s.retire n l).2 = (emptySlot l.store l.slot s.store.directory).2 := rfl
@[simp] theorem State.retire_policies (n : Nat) (l : Lane) : (s.retire n l).1.policies = s.policies.put l.type
    { s.policies.get l.type with laneCount := (s.policies.get l.type).laneCount - 1 } := rfl
@[simp] theorem State.retire_lotCount (n : Nat) (l : Lane) : (s.retire n l).1.lots.count = s.lots.count := rfl
@[simp] theorem State.retire_attention (n : Nat) (l : Lane) : (s.retire n l).1.attention = s.attention.leave n := rfl
@[simp] theorem State.retire_clock (n : Nat) (l : Lane) : (s.retire n l).1.clock = s.clock := rfl
@[simp] theorem State.retire_sweeps (n : Nat) (l : Lane) : (s.retire n l).1.sweeps = s.sweeps := rfl

theorem State.retire_lots (n : Nat) (l : Lane) : (s.retire n l).1.lots.entries =
    recount (fun m u => u - (if m = l.activeLot then 1 else 0) - if l.pendingLot = some m then 1 else 0)
      s.lots.entries := by
  refine (dropUser?_eq_recount l.pendingLot (dropUser l.activeLot s.lots.entries)).trans ?_
  rw [dropUser_eq_recount, recount_recount]

theorem AttentionList.leave_eq (a : AttentionList) (n : Nat) : a.leave n = { a with
    order := a.order.erase n, length := a.length - if n ∈ a.order then 1 else 0 } := by
  unfold AttentionList.leave
  split
  · rfl
  · rename_i h
    rw [List.erase_of_not_mem h]
    rfl

section
variable {n : Nat} {l : Lane}

theorem retire_lane (h : PoolSound s) (m : Nat) :
    (s.retire n l).1.lane m = if m = n then none else s.lane m := by
  rw [State.lane, State.retire_pool]
  split
  · rename_i hm; subst hm; exact Table.find_drop_self _ _ h.canonical
  · rename_i hm; exact Table.find_drop_ne _ _ _ hm

theorem retire_forall_lane (h : PoolSound s) {P : Nat → Lane → Prop} (hold : ∀ m x, m ≠ n → s.lane m = some x → P m x)
    (m : Nat) (x : Lane) (hx : (s.retire n l).1.lane m = some x) : P m x := by
  rw [retire_lane h] at hx
  split at hx
  · cases hx
  · rename_i hm
    exact hold m x hm hx

theorem retire_countP (hl : s.lane n = some l) (p : Lane → Bool) :
    ((s.retire n l).1.store.pool.countP fun x => p x.2) + (p l).toNat = s.store.pool.countP fun x => p x.2 := by
  have hfind : Table.find n s.store.pool = some l := hl
  have := Table.countP_drop (fun x : Nat × Lane => p x.2) n s.store.pool
  rw [hfind] at this
  exact this

theorem PoolSound.retire (h : PoolSound s) (hl : s.lane n = some l) : PoolSound (s.retire n l).1 where
  canonical := Table.wf_drop _ _ h.canonical
  places e he := h.places e ((Table.drop_sublist n _).subset he)
  count := by
    have := Table.length_drop_old n l s.store.pool hl
    rw [State.retire_occupiedLanes, State.retire_pool, h.count]
    omega

theorem DirectoryMaps.retire (h : DirectoryMaps s) (hpool : PoolSound s) (hl : s.lane n = some l) :
    DirectoryMaps (s.retire n l).1 := by
  obtain ⟨x, hx, hxn⟩ := h.named n l hl
  obtain ⟨hascending, hown, hothers, hremoved, hlength⟩ := emptySlot_spec l.store l.slot _ x h.ascending hx
  constructor
  case ascending => exact hascending
  case count =>
    rw [State.retire_siteCount, State.retire_directory, hremoved, h.count]
    by_cases hv : x.put l.slot none = Slots.vacant
    · simp only [hv, decide_true, if_true] at hlength ⊢; omega
    · simp only [hv, decide_false, if_false, Bool.false_eq_true] at hlength ⊢; omega
  case capacity =>
    have := h.capacity
    rw [State.retire_directory]
    omega
  case occupied =>
    intro b y hy
    rw [State.retire_directory] at hy
    by_cases hb : b = l.store
    · subst hb
      rw [hown] at hy
      split at hy
      · cases hy
      · rename_i hv; cases hy; exact hv
    · rw [hothers b hb] at hy
      exact h.occupied b y hy
  case names =>
    intro b y i m hy hm
    rw [State.retire_directory] at hy
    have hold : ∀ z, siteSlots b s.store.directory = some z → z.get i = some m → (b = l.store → i ≠ l.slot) →
        ∃ z, (s.retire n l).1.lane m = some z ∧ z.store = b ∧ z.slot = i := by
      intro z hz hzm hne
      obtain ⟨k, hk, hkb, hki⟩ := h.names b z i m hz hzm
      refine ⟨k, ?_, hkb, hki⟩
      rw [retire_lane hpool, if_neg, hk]
      rintro rfl
      rw [hl] at hk
      cases hk
      exact hne hkb.symm hki.symm
    by_cases hb : b = l.store
    · subst hb
      rw [hown] at hy
      split at hy
      · cases hy
      · cases hy
        by_cases hi : i = l.slot
        · subst hi
          rw [Slots.get_put] at hm
          cases hm
        · rw [Slots.get_put_ne _ _ _ _ (Ne.symm hi)] at hm
          exact hold x hx hm fun _ => hi
    · rw [hothers b hb] at hy
      exact hold y hy hm fun h => absurd h hb
  case named =>
    refine retire_forall_lane hpool fun m k hmn hk => ?_
    obtain ⟨y, hy, hym⟩ := h.named m k hk
    rw [State.retire_directory]
    by_cases hb : k.store = l.store
    · rw [hb, hx] at hy
      cases hy
      have hi : k.slot ≠ l.slot := by
        intro hi
        rw [hi, hxn] at hym
        cases hym
        exact hmn rfl
      have hget : (x.put l.slot none).get k.slot = some m := by rw [Slots.get_put_ne _ _ _ _ (Ne.symm hi), hym]
      refine ⟨x.put l.slot none, ?_, hget⟩
      rw [hb, hown, if_neg]
      intro hv
      rw [(Slots.eq_vacant_iff _).mp hv] at hget
      cases hget
    · exact ⟨y, by rw [hothers _ hb, hy], hym⟩

theorem PoliciesSound.retire (h : PoliciesSound s) (hpool : PoolSound s) (hl : s.lane n = some l) :
    PoliciesSound (s.retire n l).1 where
  inRange u p hp := by
    rw [State.retire_policies, PerType.get_put_eq_ite] at hp
    split at hp
    · exact h.inRange _ p hp
    · exact h.inRange u p hp
  count u := by
    have hcounts := retire_countP hl fun x => decide (x.type = u)
    have hbefore := h.count u
    have hafter : ((s.retire n l).1.policies.get u).laneCount =
        (s.policies.get u).laneCount - (decide (l.type = u)).toNat := by
      rw [State.retire_policies, PerType.get_put_eq_ite]
      split
      · rename_i hu; subst hu; simp
      · rename_i hu; simp [Ne.symm hu]
    rw [hafter, hbefore]
    omega
  defined := by
    have hkept : ∀ u, ((s.retire n l).1.policies.get u).policy = (s.policies.get u).policy := by
      intro u
      rw [State.retire_policies, PerType.get_put_eq_ite]
      split
      · rename_i hu; rw [hu]
      · rfl
    refine retire_forall_lane hpool fun m x _ hx => ?_
    rw [hkept]
    exact h.defined m x hx

theorem LotsSound.retire (h : LotsSound s) (hpool : PoolSound s) (hl : s.lane n = some l) :
    LotsSound (s.retire n l).1 := by
  refine h.of_recount (State.retire_lots n l) rfl rfl (fun m e he => ?_)
    (retire_forall_lane hpool fun _ _ _ hx => h.names hx)
  have hcounts := retire_countP hl (Lane.uses · m)
  have hbefore : e.users = s.store.pool.countP fun x => x.2.uses m := h.users m e he
  have hshare := (h.names hl).uses_toNat m
  omega

theorem ListSound.retire (h : ListSound s) (hpool : PoolSound s) : ListSound (s.retire n l).1 := by
  have ha : (s.retire n l).1.attention = _ := (State.retire_attention n l).trans (AttentionList.leave_eq ..)
  constructor
  case once => rw [ha]; exact h.once.erase n
  case length =>
    rw [ha]
    dsimp only
    rw [h.length, List.length_erase]
    split <;> rfl
  case listed =>
    intro m
    rw [ha, h.once.mem_erase_iff, h.listed m, retire_lane hpool]
    split <;> simp_all
  case stamped => exact retire_forall_lane hpool fun m x _ hx => h.stamped m x hx
  case owed => rw [ha]; exact h.owed
  case level => rw [ha]; exact h.level
  case pulse => rw [ha]; exact h.pulse

theorem RecordsSound.retire (h : RecordsSound s) (hl : s.lane n = some l) : RecordsSound (s.retire n l).1 where
  pool := h.pool.retire hl
  directory := (h.directory.maps.retire h.pool hl).sound
  policies := h.policies.retire h.pool hl
  lots := h.lots.retire h.pool hl
  lanes := retire_forall_lane h.pool fun m x _ hx => h.lanes m x hx
  clock := h.clock.of_eq rfl
  sweeps := ⟨h.sweeps.cursor, h.sweeps.origin, h.sweeps.pendingOverdue, h.sweeps.period,
    retire_forall_lane h.pool fun m x _ hx => h.sweeps.tags m x hx⟩
  list := h.list.retire h.pool

end

end

end Sys2Proof.Machine
end

section
/-! The proofs of this family: the ranges that stored policies and lanes keep (Tables 1-1 and 2-1), what a judgement
leaves in a lane and in the lots, and that a committed judgement keeps the records sound. -/
namespace Sys2Proof.Machine

/-! ### Clamped values (section 0.6) -/

theorem clampNat_mem {low high n : Nat} (h : low ≤ high) : low ≤ clampNat low high n ∧ clampNat low high n ≤ high := by
  unfold clampNat; omega

theorem clampNat_of_mem {low high n : Nat} (h1 : low ≤ n) (h2 : n ≤ high) : clampNat low high n = n := by
  unfold clampNat; omega

theorem storedRunLength_mem (n : Nat) :
    storedRunLength n = 0 ∨ 3 ≤ storedRunLength n ∧ storedRunLength n ≤ 15 := by
  unfold storedRunLength
  split
  · exact .inl rfl
  · exact .inr (clampNat_mem (by decide))

/-- Stored limits lie in their ranges, in order (R29). -/
theorem storedLimits_inRange (l : Limits) :
    -1000 ≤ (storedLimits l).actionLow ∧ (storedLimits l).actionLow ≤ (storedLimits l).warnLow ∧
    (storedLimits l).warnLow ≤ 0 ∧ 0 ≤ (storedLimits l).warnHigh ∧
    (storedLimits l).warnHigh ≤ (storedLimits l).actionHigh ∧ (storedLimits l).actionHigh ≤ 1000 := by
  simp only [storedLimits, clamp]
  omega

@[simp] theorem storedPolicy_limits (b : Policy) (p : Point) :
    (storedPolicy b).limits.pick p = storedLimits (b.limits.pick p) := pick_ofFn _ p

@[simp] theorem storedPolicy_threshold (b : Policy) (p : Point) :
    (storedPolicy b).driftThreshold.pick p = clampNat 1 1000 (b.driftThreshold.pick p) := pick_ofFn _ p

/-- Every stored policy is in range (R29 to R35). -/
theorem storedPolicy_inRange (b : Policy) : PolicyInRange (storedPolicy b) where
  limits p := by rw [storedPolicy_limits]; exact storedLimits_inRange _
  threshold p := by rw [storedPolicy_threshold]; exact clampNat_mem (by decide)
  shift := clampNat_mem (by decide)
  deadband := (clampNat_mem (by decide)).2
  runLength := storedRunLength_mem _
  settle := clampNat_mem (by decide)
  clear := clampNat_mem (by decide)
  overdue := clampNat_mem (by decide)
  action := rfl

@[simp] theorem storedOffsets_pick (o : Points Int) (p : Point) :
    (storedOffsets o).pick p = clamp (-500) 500 (o.pick p) := pick_ofFn _ p

/-! ### A lane's ranges, field by field -/

section
variable {l : Lane}

/-- The identity, the offsets, the days and the tag of a lane in range, whatever the state machine then writes. -/
theorem LaneInRange.resettle (h : LaneInRange l) : LaneInRange l.resettle :=
  { h with
    settle := Nat.zero_le _
    clean := Nat.zero_le _
    settleOnly := fun _ _ => rfl
    cleanOnly := fun _ _ _ => rfl
    trend := fun p => by simp [Lane.resettle]
    unseeded := fun p => by simp [Lane.resettle]
    runCount := fun p => by simp [Lane.resettle]
    held := nofun }

theorem LaneInRange.hold (h : LaneInRange l) : LaneInRange l.hold :=
  { h with
    settleOnly := fun _ hne => absurd rfl hne
    cleanOnly := fun _ _ hne => absurd rfl hne
    held := fun _ => rfl }

theorem LaneInRange.editedLane (h : LaneInRange l) (e : LaneEdit) : LaneInRange (editedLane e l) :=
  { h with
    offsets := fun p => by
      cases he : e.offsets with
      | none => simpa only [Machine.editedLane, he] using h.offsets p
      | some o =>
        simp only [Machine.editedLane, he, storedOffsets_pick]
        exact clamp_mem (by decide) }

theorem LaneInRange.editLaneOf (h : LaneInRange l) (e : LaneEdit) : LaneInRange (editLaneOf e l) := by
  unfold Machine.editLaneOf
  dsimp only
  split
  · exact h.editedLane e
  · exact (h.editedLane e).resettle

theorem editLaneOf_sameTies (e : LaneEdit) (l : Lane) : l.SameTies (editLaneOf e l) := by
  unfold editLaneOf
  dsimp only
  split <;> exact ⟨⟨rfl, rfl, rfl⟩, rfl, rfl, rfl, rfl⟩

theorem editLaneOf_periodTag (e : LaneEdit) (l : Lane) : (editLaneOf e l).periodTag = l.periodTag := by
  unfold editLaneOf
  dsimp only
  split <;> rfl

theorem countersInRange_zero : CountersInRange ⟨0, 0, 0, 0, 0, 0, 0, 0⟩ := by
  constructor <;> exact Nat.zero_le _

/-- A new lane is in range (Table 1-2). -/
theorem newLane_inRange {c : LaneCreation} {slot : SlotNumber} {type : ProcessType} {active day period : Nat}
    {rolling : Option Nat} (hne : c.store ≠ 0) (hstore : c.store ≤ 65535) (hday : day ≤ 65535)
    (hperiod : period ≤ 65535) : LaneInRange (newLane c slot type active rolling day period) where
  store := ⟨Nat.pos_of_ne_zero hne, hstore⟩
  settle := Nat.zero_le _
  clean := Nat.zero_le _
  settleOnly _ _ := rfl
  cleanOnly _ _ _ := rfl
  offsets p := by simp only [newLane, storedOffsets_pick]; exact clamp_mem (by decide)
  trend p := by simp [newLane]
  unseeded p := by simp [newLane]
  runCount p := by simp [newLane]
  lastDeviation p d := by simp [newLane]
  created := hday
  lastDay := nofun
  reruns := Nat.zero_le _
  held := nofun
  counters := countersInRange_zero
  summary := countersInRange_zero
  tag := hperiod

theorem LaneInRange.closeLane (h : LaneInRange l) {period : Nat} (hperiod : period ≤ 65535) :
    LaneInRange (closeLane period l) :=
  { h with counters := countersInRange_zero, summary := h.counters, tag := hperiod }

theorem LaneInRange.markOverdue (h : LaneInRange l) (hheld : l.state ≠ .held) :
    LaneInRange { l with
      overdue := true
      counters := { l.counters with overdueRaises := saturate 255 l.counters.overdueRaises } } :=
  { h with
    held := fun hh => absurd hh hheld
    counters := { h.counters with overdueRaises := saturate_le 255 _ } }

theorem LaneInRange.withLots (h : LaneInRange l) (a : Nat) (p : Option Nat) :
    LaneInRange { l with activeLot := a, pendingLot := p } := { h with }

/-! ### The stages of a reading keep a lane in range (R79, R80, R104, R120) -/

theorem LaneInRange.countRefusal (h : LaneInRange l) : LaneInRange (countRefusal l) :=
  { h with counters := { h.counters with refusals := saturate_le 255 _ } }

theorem LaneInRange.crossLane (h : LaneInRange l) (c : LotCase) (lot : Nat) : LaneInRange (crossLane c lot l) := by
  unfold Machine.crossLane
  split
  · exact h
  · exact { h with
      runCount := fun p => by simp
      counters := { h.counters with crossovers := saturate_le 255 _ } }
  · exact { h with
      runCount := fun p => by simp
      counters := { h.counters with crossovers := saturate_le 255 _ } }

/-- What a reading may write for one point. -/
structure ResultInRange (r : PointResult) : Prop where
  deviation : -1000 ≤ r.deviation ∧ r.deviation ≤ 1000
  trend : -16000 ≤ r.trend ∧ r.trend ≤ 16000
  runCount : -15 ≤ r.runCount ∧ r.runCount ≤ 15

theorem newRunCount_mem {b : Nat} {r d : Int} (h : -15 ≤ r ∧ r ≤ 15) :
    -15 ≤ newRunCount b r d ∧ newRunCount b r d ≤ 15 := by
  unfold newRunCount
  (repeat' split) <;> omega

theorem judgePoint_inRange {pol : Policy} (hpol : PolicyInRange pol) (hl : LaneInRange l) (refs : Patches Nat)
    (clipped : Patches Bool) (p : Point) (v : Int) : ResultInRange (judgePoint pol l refs clipped p v) where
  deviation := clamp_mem (by decide)
  trend := newTrend_in_range hpol.shift.1 (hl.trend p) (clamp_mem (by decide))
  runCount := newRunCount_mem (hl.runCount p)

theorem results_inRange {pol : Policy} (hpol : PolicyInRange pol) (hl : LaneInRange l) (refs : Patches Nat)
    (rep : Report) {p : Point} {r : PointResult} (h : (results pol l refs rep).pick p = some r) : ResultInRange r := by
  rw [results_pick] at h
  obtain ⟨v, -, rfl⟩ := Option.map_eq_some_iff.mp h
  exact judgePoint_inRange hpol hl refs rep.clipped p v

theorem writePoints_runCount (rs : Points (Option PointResult)) (l : Lane) (p : Point) :
    (writePoints rs l).runCount.pick p = match rs.pick p with
      | some r => r.runCount
      | none => l.runCount.pick p := pick_ofFn _ p

theorem writePoints_lastDeviation (rs : Points (Option PointResult)) (l : Lane) (p : Point) :
    (writePoints rs l).lastDeviation.pick p = (rs.pick p).map PointResult.deviation := pick_ofFn _ p

theorem LaneInRange.writePoints (h : LaneInRange l) {rs : Points (Option PointResult)}
    (hrs : ∀ p r, rs.pick p = some r → ResultInRange r) : LaneInRange (writePoints rs l) :=
  { h with
    trend := fun p => by
      cases hr : rs.pick p with
      | none => rw [writePoints_trend_of_none hr]; exact h.trend p
      | some r => rw [writePoints_trend_of_some hr]; exact (hrs p r hr).trend
    unseeded := fun p => by
      cases hr : rs.pick p with
      | none => rw [writePoints_trend_of_none hr]; exact h.unseeded p
      | some r => rw [writePoints_trend_of_some hr]; nofun
    runCount := fun p => by
      rw [writePoints_runCount]
      cases hr : rs.pick p with
      | none => exact h.runCount p
      | some r => exact (hrs p r hr).runCount
    lastDeviation := fun p d hd => by
      rw [writePoints_lastDeviation] at hd
      obtain ⟨r, hr, rfl⟩ := Option.map_eq_some_iff.mp hd
      exact (hrs p r hr).deviation }

/-- The day checks and the clock's range are what the day fields need (R70 to R72). -/
theorem LaneInRange.writeDay {s : State} (h : LaneInRange l) {day : Nat} (hday : PassesDayChecks s l day)
    (hclock : s.clock.day ≤ 65535) : LaneInRange (writeDay day l) :=
  { h with
    lastDay := fun d hd => by
      obtain rfl : day = d := Option.some.inj hd
      have hnotStale := hday.notStale
      have hnotAhead := hday.notAhead
      refine ⟨?_, Nat.le_trans hnotAhead hclock⟩
      show l.createdDay ≤ day
      cases hlast : l.lastDay with
      | none => simpa [hlast] using hnotStale
      | some last =>
        have := (h.lastDay last hlast).1
        rw [hlast, Option.getD_some] at hnotStale
        omega
    reruns := by
      have hreruns := h.reruns
      have hleft := hday.rerunLeft
      simp only [Machine.writeDay, decide_eq_true_eq]
      split
      · have : l.rerunsToday ≠ 2 := fun h2 => hleft ⟨by assumption, h2⟩
        omega
      · exact Nat.zero_le _
    held := fun _ => rfl
    counters := { h.counters with
      readings := saturate_le 65535 _
      reruns := by
        simp only [Machine.writeDay]
        split
        · exact saturate_le 255 _
        · exact h.counters.reruns } }

/-- The states and progress counts a transition may give (R110). -/
structure MoveInRange (m : Move) : Prop where
  notHeld : m.state ≠ .held
  settle : m.settle ≤ 8
  clean : m.clean ≤ 8
  settleOnly : m.state ≠ .settling → m.settle = 0
  cleanOnly : m.state ≠ .drift → m.state ≠ .action → m.clean = 0

theorem MoveInRange.of_zero {st : LaneState} {c : Option Cause} (h : st ≠ .held) : MoveInRange ⟨st, 0, 0, c⟩ :=
  ⟨h, Nat.zero_le _, Nat.zero_le _, fun _ => rfl, fun _ _ => rfl⟩

theorem settleStep_inRange (pol : Policy) (n : Nat) : MoveInRange (settleStep pol n) := by
  unfold settleStep
  dsimp only
  split
  · exact .of_zero nofun
  · exact ⟨nofun, Nat.min_le_right .., Nat.zero_le _, fun h => absurd rfl h, fun _ _ => rfl⟩

theorem clearStep_inRange {pol : Policy} (hpol : PolicyInRange pol) (b : Bool) {st : LaneState} (n : Nat)
    (hst : st = .drift ∨ st = .action) : MoveInRange (clearStep pol b st n) := by
  have hheld : st ≠ .held := by rcases hst with rfl | rfl <;> nofun
  have hclean : ∀ k, st ≠ .drift → st ≠ .action → k = 0 := fun k h1 h2 => by
    rcases hst with rfl | rfl
    · exact absurd rfl h1
    · exact absurd rfl h2
  unfold clearStep
  dsimp only
  split
  · exact ⟨hheld, Nat.zero_le _, Nat.min_le_right .., fun _ => rfl, hclean _⟩
  · split
    · exact .of_zero nofun
    · exact ⟨hheld, Nat.zero_le _, hpol.clear.2, fun _ => rfl, hclean _⟩

theorem moveLane_inRange {pol : Policy} (hpol : PolicyInRange pol) (hheld : l.state ≠ .held) (o : ReadingOutcome) :
    MoveInRange (moveLane pol l o) := by
  unfold moveLane
  split
  · rename_i h; exact absurd h hheld
  all_goals first
    | exact .of_zero nofun
    | exact clearStep_inRange hpol _ _ (.inr rfl)
    | exact clearStep_inRange hpol _ _ (.inl rfl)
    | exact settleStep_inRange _ _

theorem LaneInRange.writeMove (h : LaneInRange l) {m : Move} (hm : MoveInRange m) (o : ReadingOutcome) :
    LaneInRange (writeMove m o l) :=
  { h with
    settle := hm.settle
    clean := hm.clean
    settleOnly := fun hs _ => hm.settleOnly hs
    cleanOnly := fun h1 h2 _ => hm.cleanOnly h1 h2
    held := fun hh => absurd hh hm.notHeld
    counters := { h.counters with
      warns := by
        simp only [Machine.writeMove]
        split
        · exact saturate_le 255 _
        · exact h.counters.warns
      driftEntries := by
        simp only [Machine.writeMove]
        split
        · exact saturate_le 255 _
        · exact h.counters.driftEntries
      actionEntries := by
        simp only [Machine.writeMove]
        split
        · exact saturate_le 255 _
        · exact h.counters.actionEntries } }

end

/-! ### The judgement of a report (R67) -/

/-- Everything a judgement can come to: a refusal by the day, a refusal by the lot, NO DATA after any crossover, or the
reading. -/
theorem judge_inv {lots : Table Lot} {pol : Policy} {today : Nat} {l : Lane} {rep : Report} {j : Judgement}
    (h : judge lots pol today l rep = .ok j) :
    (∃ reason, dayRefusal today l rep.day = some reason ∧
      j = ⟨none, countRefusal l, [], .refused reason⟩) ∨
    (dayRefusal today l rep.day = none ∧
      ((∃ reason, (resolveLot lots l rep.lot).refusal = some reason ∧
        j = ⟨some (resolveLot lots l rep.lot), countRefusal l, [.lotRefused], .refused reason⟩) ∨
      ((resolveLot lots l rep.lot).refusal = none ∧
        (j = ⟨some (resolveLot lots l rep.lot), countRefusal (crossLane (resolveLot lots l rep.lot) rep.lot l),
          (resolveLot lots l rep.lot).causes, .refused .noData⟩ ∨
        ∃ e : Lot, j = judgeAccepted pol e.references (resolveLot lots l rep.lot)
          (crossLane (resolveLot lots l rep.lot) rep.lot l) rep)))) := by
  unfold judge at h
  split at h
  · rename_i reason hd
    cases h
    exact .inl ⟨reason, hd, rfl⟩
  · rename_i hd
    refine .inr ⟨hd, ?_⟩
    dsimp only at h
    split at h
    · rename_i reason hr
      cases h
      exact .inl ⟨reason, hr, rfl⟩
    · rename_i hr
      refine .inr ⟨hr, ?_⟩
      split at h
      · cases h; exact .inl rfl
      · split at h <;> cases h
        rename_i e _
        exact .inr ⟨e, rfl⟩

/-- A reading keeps what a crossover of the lane left in its lots and its identity. -/
structure Lane.SameBinding (l l' : Lane) : Prop extends Lane.SameIdentity l l' where
  activeLot : l'.activeLot = l.activeLot
  pendingLot : l'.pendingLot = l.pendingLot
  causes : l'.causes = l.causes
  joined : l'.joined = l.joined
  periodTag : l'.periodTag = l.periodTag

theorem countRefusal_sameBinding (l : Lane) : l.SameBinding (countRefusal l) := ⟨⟨rfl, rfl, rfl⟩, rfl, rfl, rfl, rfl, rfl⟩

theorem judgeAccepted_sameBinding (pol : Policy) (refs : Patches Nat) (c : LotCase) (l : Lane) (rep : Report) :
    l.SameBinding (judgeAccepted pol refs c l rep).lane := ⟨⟨rfl, rfl, rfl⟩, rfl, rfl, rfl, rfl, rfl⟩

@[simp] theorem crossLane_store (c : LotCase) (lot : Nat) (l : Lane) : (crossLane c lot l).store = l.store := by
  unfold crossLane; split <;> rfl
@[simp] theorem crossLane_slot (c : LotCase) (lot : Nat) (l : Lane) : (crossLane c lot l).slot = l.slot := by
  unfold crossLane; split <;> rfl
@[simp] theorem crossLane_periodTag (c : LotCase) (lot : Nat) (l : Lane) :
    (crossLane c lot l).periodTag = l.periodTag := by
  unfold crossLane; split <;> rfl
@[simp] theorem crossLane_state (c : LotCase) (lot : Nat) (l : Lane) : (crossLane c lot l).state = l.state := by
  unfold crossLane; split <;> rfl
@[simp] theorem crossLane_lastDay (c : LotCase) (lot : Nat) (l : Lane) : (crossLane c lot l).lastDay = l.lastDay := by
  unfold crossLane; split <;> rfl
@[simp] theorem crossLane_createdDay (c : LotCase) (lot : Nat) (l : Lane) :
    (crossLane c lot l).createdDay = l.createdDay := by
  unfold crossLane; split <;> rfl
@[simp] theorem crossLane_rerunsToday (c : LotCase) (lot : Nat) (l : Lane) :
    (crossLane c lot l).rerunsToday = l.rerunsToday := by
  unfold crossLane; split <;> rfl

theorem PassesDayChecks.crossLane {s : State} {l : Lane} {day : Nat} (h : PassesDayChecks s l day) (c : LotCase)
    (lot : Nat) : PassesDayChecks s (crossLane c lot l) day :=
  ⟨by simpa using h.notHeld, by simpa using h.notStale, h.notAhead, by simpa using h.rerunLeft⟩

/-- The lane a judgement leaves, but for its cause set: in the lane's binding, or in that of the lane crossed over. -/
theorem judge_sameBinding {lots : Table Lot} {pol : Policy} {today : Nat} {l : Lane} {rep : Report} {j : Judgement}
    (h : judge lots pol today l rep = .ok j) :
    (l.SameBinding j.lane ∧ ∀ c, j.lotCase = some c → c.refusal ≠ none) ∨
    (j.lotCase = some (resolveLot lots l rep.lot) ∧ (resolveLot lots l rep.lot).refusal = none ∧
      (crossLane (resolveLot lots l rep.lot) rep.lot l).SameBinding j.lane) := by
  rcases judge_inv h with ⟨reason, -, rfl⟩ | ⟨-, ⟨reason, hr, rfl⟩ | ⟨hr, rfl | ⟨e, rfl⟩⟩⟩
  · exact .inl ⟨countRefusal_sameBinding l, nofun⟩
  · exact .inl ⟨countRefusal_sameBinding l, fun c hc => by cases hc; rw [hr]; nofun⟩
  · exact .inr ⟨rfl, hr, countRefusal_sameBinding _⟩
  · exact .inr ⟨rfl, hr, judgeAccepted_sameBinding ..⟩

/-- The lane a judgement leaves is in range. -/
theorem judge_laneInRange {s : State} {pol : Policy} {l : Lane} {rep : Report} {j : Judgement}
    (hpol : PolicyInRange pol) (hl : LaneInRange l) (hclock : s.clock.day ≤ 65535)
    (h : judge s.lots.entries pol s.clock.day l rep = .ok j) : LaneInRange j.lane := by
  rcases judge_inv h with ⟨reason, -, rfl⟩ | ⟨hd, ⟨reason, -, rfl⟩ | ⟨-, rfl | ⟨e, rfl⟩⟩⟩
  · exact hl.countRefusal
  · exact hl.countRefusal
  · exact (hl.crossLane _ _).countRefusal
  · have hday := ((dayRefusal_eq_none_iff s l rep.day).mp hd).crossLane (resolveLot s.lots.entries l rep.lot) rep.lot
    have hcrossed := hl.crossLane (resolveLot s.lots.entries l rep.lot) rep.lot
    have hpoints := hcrossed.writePoints fun p r => results_inRange hpol hcrossed e.references rep
    have hwritten : PassesDayChecks s (writePoints (results pol
        (Machine.crossLane (resolveLot s.lots.entries l rep.lot) rep.lot l) e.references rep)
        (Machine.crossLane (resolveLot s.lots.entries l rep.lot) rep.lot l)) rep.day :=
      ⟨hday.notHeld, hday.notStale, hday.notAhead, hday.rerunLeft⟩
    exact (hpoints.writeDay hwritten hclock).writeMove (moveLane_inRange hpol hday.notHeld _) _

/-! ### The lots after a judgement (Table 3-2) -/

/-- The user counts after the crossover of a case, as one rewriting of each count. -/
theorem crossUsers_eq_recount {c : LotCase} (lot : Nat) (l : Lane) (t : Table Lot) (hc : c.crossover ≠ .none) :
    crossUsers c lot l t = recount (fun m u => u - (if m = l.activeLot then 1 else 0) -
      (if c = .auto ∧ l.pendingLot = some m then 1 else 0) + if c = .auto ∧ m = lot then 1 else 0) t := by
  cases c with
  | active | mismatch | unknown => exact absurd rfl hc
  | pending =>
    refine (dropUser_eq_recount l.activeLot t).trans ?_
    simp
  | auto =>
    refine (congrArg (addUser lot ∘ dropUser? l.pendingLot) (dropUser_eq_recount l.activeLot t)).trans ?_
    simp only [Function.comp_apply]
    rw [dropUser?_eq_recount, recount_recount, addUser_eq_recount, recount_recount]
    simp

theorem crossUsers_of_none {c : LotCase} (lot : Nat) (l : Lane) (t : Table Lot) (hc : c.crossover = .none) :
    crossUsers c lot l t = t := by
  simp only [crossUsers, hc]

theorem crossLane_of_none {c : LotCase} (lot : Nat) (l : Lane) (hc : c.crossover = .none) : crossLane c lot l = l := by
  simp only [crossLane, hc]

theorem LotCase.crossover_of_refusal {c : LotCase} (h : c.refusal ≠ none) : c.crossover = .none := by
  cases c with
  | active | pending | auto => exact absurd rfl h
  | mismatch | unknown => rfl

/-- The lots' entries once a judgement's crossover is counted (Table 3-2). -/
def judgedLots (j : Judgement) (lot : Nat) (before : Lane) (t : Table Lot) : Table Lot :=
  match j.lotCase with
  | none => t
  | some c => crossUsers c lot before t

theorem commitJudgement_eq (s : State) (n : Nat) (l : Lane) (m : Causes) (lot : Nat) (j : Judgement) :
    commitJudgement s n l m lot j =
      ((s.withLots (judgedLots j lot l s.lots.entries)).putLane n j.lane).raiseAll m n j.causes := rfl

/-- A crossover by an accepting case keeps the Lot Table sound: the former lot's user is the new lot's, and the new
lot is of the lane's type. -/
theorem LotsSound.cross {s t : State} (h : LotsSound s) (hpool : PoolSound s) {n : Nat} {l l' : Lane} {lot : Nat}
    {c : LotCase} (w : Rewrites n l l' s t) (hc : ResolvesTo s l lot c) (hl' : (crossLane c lot l).SameBinding l')
    (hentries : t.lots.entries = crossUsers c lot l s.lots.entries) (hcount : t.lots.count = s.lots.count)
    (hengine : t.sweeps.engine = s.sweeps.engine) : LotsSound t := by
  have hnames := h.names w.was
  have hlot : c.crossover ≠ .none → ∃ e, Table.find lot s.lots.entries = some e ∧ e.type = l.type := by
    intro hne
    cases hc with
    | active _ => exact absurd rfl hne
    | pending _ hp => exact (hnames.pendingLot lot hp).2
    | auto e _ _ he ht _ _ => exact ⟨e, he, ht⟩
  have htype : l'.type = l.type := hl'.type.trans (crossLane_type ..)
  by_cases hne : c.crossover = .none
  · rw [crossLane_of_none lot l hne] at hl'
    rw [crossUsers_of_none lot l _ hne] at hentries
    exact h.rewrite_same hpool w (by cases hs : s.lots; cases ht : t.lots; simp_all) hengine htype hl'.activeLot
      hl'.pendingLot
  · have hactive : l'.activeLot = lot := hl'.activeLot.trans (by cases hc <;> first | rfl | exact absurd rfl hne)
    have hpending : l'.pendingLot = none := hl'.pendingLot.trans (by cases hc <;> first | rfl | exact absurd rfl hne)
    have hnames' : NamesLots s.lots.entries l' :=
      ⟨by rw [hactive, htype]; exact hlot hne, fun p hp => by rw [hpending] at hp; cases hp⟩
    refine h.rewrite hpool w (hentries.trans (crossUsers_eq_recount lot l _ hne)) hcount hengine ?_ hnames'
    intro m u hu
    rw [hnames.uses_toNat] at hu ⊢
    rw [hnames'.uses_toNat, hactive, hpending]
    cases hc with
    | active _ => exact absurd rfl hne
    | pending hact hp =>
      have hml : l.pendingLot = some m ↔ m = lot := by rw [hp]; simp [eq_comm]
      have : m = lot → m ≠ l.activeLot := by rintro rfl; exact hact
      simp only [hml] at hu ⊢
      simp only [reduceCtorEq, false_and, if_false]
      by_cases h1 : m = l.activeLot <;> by_cases h2 : m = lot <;> simp_all
    | auto e hact hp _ _ _ _ =>
      have hml : l.pendingLot = some m → m ≠ lot := by rintro h rfl; exact hp h
      have : m = lot → m ≠ l.activeLot := by rintro rfl; exact hact
      simp only [reduceCtorEq, true_and, if_false]
      by_cases h1 : m = l.activeLot <;> by_cases h2 : l.pendingLot = some m <;> by_cases h3 : m = lot <;>
        (simp_all; try omega)

theorem RecordsSound.commitJudgement {s : State} (h : RecordsSound s) {n : Nat} {l : Lane} {pol : Policy}
    {rep : Report} {j : Judgement} (hl : s.lane n = some l) (hpol : (s.policies.get l.type).policy = some pol)
    (hj : judge s.lots.entries pol s.clock.day l rep = .ok j) :
    RecordsSound (commitJudgement s n l pol.noticeMask rep.lot j) := by
  rw [commitJudgement_eq]
  refine RecordsSound.raiseAll ?_ _ _ _
  have w : Rewrites n l j.lane s ((s.withLots (judgedLots j rep.lot l s.lots.entries)).putLane n j.lane) := ⟨hl, rfl⟩
  have hrange := judge_laneInRange (h.policies.inRange _ _ hpol) (h.lanes n l hl) h.clock.day hj
  have finish : l.SameIdentity j.lane → j.lane.causes = l.causes → j.lane.joined = l.joined →
      j.lane.periodTag = l.periodTag → LotsSound ((s.withLots (judgedLots j rep.lot l s.lots.entries)).putLane n j.lane) →
      RecordsSound ((s.withLots (judgedLots j rep.lot l s.lots.entries)).putLane n j.lane) :=
    fun hid hcauses hjoined htag hlots => h.rewrite w hid hrange (.inl htag) rfl rfl rfl hlots
      (h.list.rewrite w rfl (by rw [hcauses]) hjoined)
  rcases judge_sameBinding hj with ⟨hb, hrefused⟩ | ⟨hcase, hr, hb⟩
  · have hlots : judgedLots j rep.lot l s.lots.entries = s.lots.entries := by
      unfold judgedLots
      split
      · rfl
      · rename_i c hc
        exact crossUsers_of_none _ _ _ (LotCase.crossover_of_refusal (hrefused c hc))
    refine finish hb.toSameIdentity hb.causes hb.joined hb.periodTag ?_
    refine h.lots.rewrite_same h.pool w ?_ rfl hb.type hb.activeLot hb.pendingLot
    show { s.lots with entries := judgedLots j rep.lot l s.lots.entries } = s.lots
    rw [hlots]
  · have hentries : judgedLots j rep.lot l s.lots.entries =
        crossUsers (resolveLot s.lots.entries l rep.lot) rep.lot l s.lots.entries := by
      simp only [judgedLots, hcase]
    refine finish ⟨hb.store.trans (crossLane_store ..), hb.slot.trans (crossLane_slot ..),
      hb.type.trans (crossLane_type ..)⟩ (hb.causes.trans (crossLane_causes ..)) (hb.joined.trans (crossLane_joined ..))
      (hb.periodTag.trans (crossLane_periodTag ..)) ?_
    exact h.lots.cross h.pool w (resolvesTo_of_resolveLot hr) hb hentries rfl rfl

theorem RecordsSound.pushVerdict {s : State} (h : RecordsSound s) (v : Verdict) : RecordsSound (s.pushVerdict v) :=
  SameRecords.sound (s := s) ⟨rfl, rfl, rfl, rfl, rfl, rfl⟩ h

/-- The evaluation of a report keeps the records sound (R67). -/
theorem RecordsSound.evaluateReport {s t : State} (h : RecordsSound s) {q : QueuedReport}
    (ht : evaluateReport q s = .ok t) : RecordsSound t := by
  rcases evaluateReport_cases ht with ⟨-, rfl⟩ | ⟨n, l, pol, j, hl, hpol, hj, rfl⟩
  · exact h.pushVerdict _
  · exact (h.commitJudgement (lane_of_laneAt hl) hpol hj).pushVerdict _

end Sys2Proof.Machine
end

section
/-! The proofs of this family: every command keeps the records sound, so every step keeps every state sound. -/
namespace Sys2Proof.Machine

section
variable {s t : State}

/-! ### Policies (R36, R37) -/

theorem PoliciesSound.withPolicy (h : PoliciesSound s) (u : ProcessType) (p : Option Policy)
    (hrange : ∀ q, p = some q → PolicyInRange q) (hdefined : p = none → (s.policies.get u).laneCount = 0) :
    PoliciesSound (s.withPolicy u ⟨p, (s.policies.get u).laneCount⟩) where
  inRange v q hq := by
    rw [State.withPolicy_policies, PerType.get_put_eq_ite] at hq
    split at hq
    · exact hrange q hq
    · exact h.inRange v q hq
  count v := by
    rw [State.withPolicy_policies, PerType.get_put_eq_ite]
    split
    · rename_i hv; subst hv; exact h.count _
    · exact h.count v
  defined n l hl := by
    rw [State.withPolicy_policies, PerType.get_put_eq_ite]
    split
    · rename_i hu
      cases p with
      | some q => rfl
      | none =>
        have hpos := countP_pos_of_lane (s := s) (fun e => decide (e.2.type = u)) hl (by simp [hu])
        rw [← h.count u, hdefined rfl] at hpos
        cases hpos
    · exact h.defined n l hl

theorem RecordsSound.withPolicy (h : RecordsSound s) (u : ProcessType) (p : Option Policy)
    (hrange : ∀ q, p = some q → PolicyInRange q) (hdefined : p = none → (s.policies.get u).laneCount = 0) :
    RecordsSound (s.withPolicy u ⟨p, (s.policies.get u).laneCount⟩) where
  pool := h.pool.of_eq rfl
  directory := h.directory.of_eq rfl
  policies := h.policies.withPolicy u p hrange hdefined
  lots := h.lots.of_eq rfl rfl rfl
  lanes := h.lanes.of_eq rfl
  clock := h.clock.of_eq rfl
  sweeps := h.sweeps.of_eq rfl rfl
  list := h.list.of_eq rfl rfl

/-! ### Lots (R50, R52) -/

/-- The records stay sound when only the Lot Table changes, to a sound one. -/
theorem RecordsSound.withLotTable (h : RecordsSound s) (x : LotTable) (hlots : LotsSound { s with lots := x }) :
    RecordsSound { s with lots := x } where
  pool := h.pool.of_eq rfl
  directory := h.directory.of_eq rfl
  policies := h.policies.of_eq rfl rfl
  lots := hlots
  lanes := h.lanes.of_eq rfl
  clock := h.clock.of_eq rfl
  sweeps := h.sweeps.of_eq rfl rfl
  list := h.list.of_eq rfl rfl

theorem NamesLots.of_find {t t' : Table Lot} {l : Lane} (h : NamesLots t l)
    (hkept : ∀ n e, l.uses n = true → Table.find n t = some e → ∃ e', Table.find n t' = some e' ∧ e'.type = e.type) :
    NamesLots t' l where
  active := by
    obtain ⟨e, he, ht⟩ := h.active
    obtain ⟨e', he', ht'⟩ := hkept _ e (by simp [Lane.uses]) he
    exact ⟨e', he', ht'.trans ht⟩
  pendingLot p hp := by
    obtain ⟨hne, e, he, ht⟩ := h.pendingLot p hp
    obtain ⟨e', he', ht'⟩ := hkept p e (by simp [Lane.uses, hp]) he
    exact ⟨hne, e', he', ht'.trans ht⟩

theorem mem_storedReferences {refs : Patches Nat} {v : Nat} (h : v ∈ Patches.toList (storedReferences refs)) :
    v ≤ 4000 := by
  simp only [storedReferences, Patches.map, Channels.map, Strip.map, Patches.toList, List.flatMap_cons,
    List.flatMap_nil, List.mem_append, List.mem_cons, List.not_mem_nil, or_false, Config.densityTop] at h
  omega

/-- No lane names a lot that is not in the table. -/
theorem LotsSound.uses_eq_false (h : LotsSound s) {lot n : Nat} {l : Lane}
    (hnone : Table.find lot s.lots.entries = none) (hl : s.lane n = some l) : l.uses lot = false := by
  have hnames := h.names hl
  by_contra hu
  simp only [Bool.not_eq_false, Lane.uses, Bool.or_eq_true, decide_eq_true_eq] at hu
  rcases hu with hu | hu
  · obtain ⟨e, he, -⟩ := hnames.active
    rw [hu, hnone] at he
    cases he
  · obtain ⟨-, e, he, -⟩ := hnames.pendingLot lot hu
    rw [hnone] at he
    cases he

/-- A lot announced: a number not in the table, room for it, and no lane that names it (R50). -/
theorem LotsSound.announce (h : LotsSound s) (hpool : PoolSound s) {lot : Nat} {e : Lot} (hlot : lot ≠ 0)
    (hnone : Table.find lot s.lots.entries = none) (hroom : s.lots.entries.length < 32) (hstate : e.state = .announced)
    (husers : e.users = 0) (hrefs : ∀ v ∈ Patches.toList e.references, v ≤ 4000) :
    LotsSound { s with lots := ⟨Table.put lot e s.lots.entries, s.lots.count + 1⟩ } := by
  have hlength := Table.length_put_new lot e s.lots.entries h.canonical hnone
  have hfind : ∀ {P : Nat → Lot → Prop}, P lot e → (∀ n x, Table.find n s.lots.entries = some x → P n x) →
      ∀ n x, Table.find n (Table.put lot e s.lots.entries) = some x → P n x := by
    intro P hnew hold n x hx
    rw [Table.find_put] at hx
    split at hx
    · rename_i hn; cases hx; exact hn ▸ hnew
    · exact hold n x hx
  have hnames : ∀ n l, s.lane n = some l → NamesLots (Table.put lot e s.lots.entries) l := fun n l hl =>
    (h.names hl).of_find fun m x hm hx => by
      have hne : m ≠ lot := by
        rintro rfl
        rw [hnone] at hx
        cases hx
      exact ⟨x, by rw [Table.find_put, if_neg hne, hx], rfl⟩
  constructor
  case canonical => exact Table.wf_put _ _ _ h.canonical
  case count => exact (congrArg (· + 1) h.count).trans hlength.symm
  case capacity => exact hlength.le.trans hroom
  case numbers => exact hfind (Nat.pos_of_ne_zero hlot) h.numbers
  case references => exact hfind hrefs h.references
  case users =>
    refine hfind ?_ h.users
    rw [husers, eq_comm, List.countP_eq_zero]
    intro x hx
    have := h.uses_eq_false hnone (Table.find_of_mem hpool.canonical hx)
    simpa [Lane.uses] using this
  case active => exact fun n l hl => (hnames n l hl).active
  case pendingLot => exact fun n l p hl => (hnames n l hl).pendingLot p
  case oneCurrent =>
    refine fun a b x y hx => hfind (P := fun a x => Table.find b (Table.put lot e s.lots.entries) = some y →
      x.state = .current → y.state = .current → x.type = y.type → a = b) ?_ ?_ a x hx
    · intro _ hcurrent
      rw [hstate] at hcurrent
      cases hcurrent
    · intro a x hx hy
      refine hfind (P := fun b y => x.state = .current → y.state = .current → x.type = y.type → a = b) ?_ ?_ b y hy
      · intro _ hcurrent
        rw [hstate] at hcurrent
        cases hcurrent
      · exact fun b y hy => h.oneCurrent a b x y hx hy
  case rolling =>
    refine hfind ⟨fun hr => ?_, ?_⟩ h.rolling
    · rw [hstate] at hr; cases hr
    · rintro ⟨w, hw, hk⟩
      have := h.rolled w lot hw hk
      rw [hnone] at this
      cases this
  case rolled =>
    intro w n hw hk
    have := h.rolled w n hw hk
    dsimp only
    rw [Table.find_put]
    split
    · rfl
    · exact this

theorem RecordsSound.announceLot (h : RecordsSound s) {lot : Nat} (u : ProcessType) (refs : Patches Nat)
    (hlot : lot ≠ 0) (hnone : Table.find lot s.lots.entries = none) (hroom : s.lots.entries.length < 32) :
    RecordsSound { s with lots :=
      ⟨Table.put lot ⟨u, .announced, storedReferences refs, 0, s.clock.day⟩ s.lots.entries, s.lots.count + 1⟩ } :=
  h.withLotTable _ (h.lots.announce h.pool hlot hnone hroom rfl rfl fun _ hv => mem_storedReferences (refs := refs) hv)

/-- A lot deleted: one that no lane names and no rollout rolls (R52). -/
theorem LotsSound.delete (h : LotsSound s) {lot : Nat} {e : Lot}
    (he : Table.find lot s.lots.entries = some e) (hstate : e.state ≠ .rolling) (husers : e.users = 0) :
    LotsSound { s with lots := ⟨Table.drop lot s.lots.entries, s.lots.count - 1⟩ } := by
  have hlength := Table.length_drop_old lot e s.lots.entries he
  have hfind : ∀ {n x}, Table.find n (Table.drop lot s.lots.entries) = some x →
      n ≠ lot ∧ Table.find n s.lots.entries = some x := by
    intro n x hx
    by_cases hn : n = lot
    · subst hn
      rw [Table.find_drop_self _ _ h.canonical] at hx
      cases hx
    · rw [Table.find_drop_ne _ _ _ hn] at hx
      exact ⟨hn, hx⟩
  have hunused : ∀ n l, s.lane n = some l → l.uses lot = false := by
    intro n l hl
    by_contra hu
    have hpos := countP_pos_of_lane (fun x => x.2.uses lot) hl (by simpa using hu)
    have : e.users = _ := h.users lot e he
    rw [husers] at this
    exact absurd this (Nat.ne_of_lt hpos)
  have hnames : ∀ n l, s.lane n = some l → NamesLots (Table.drop lot s.lots.entries) l := fun n l hl =>
    (h.names hl).of_find fun m x hm hx => by
      have hne : m ≠ lot := by
        rintro rfl
        rw [hunused n l hl] at hm
        cases hm
      exact ⟨x, by rw [Table.find_drop_ne _ _ _ hne, hx], rfl⟩
  constructor
  case canonical => exact Table.wf_drop _ _ h.canonical
  case count =>
    have := h.count
    dsimp only
    omega
  case capacity =>
    have := h.capacity
    dsimp only
    omega
  case numbers => exact fun n x hx => h.numbers n x (hfind hx).2
  case references => exact fun n x hx => h.references n x (hfind hx).2
  case users => exact fun n x hx => h.users n x (hfind hx).2
  case active => exact fun n l hl => (hnames n l hl).active
  case pendingLot => exact fun n l p hl => (hnames n l hl).pendingLot p
  case oneCurrent => exact fun a b x y hx hy => h.oneCurrent a b x y (hfind hx).2 (hfind hy).2
  case rolling => exact fun n x hx => h.rolling n x (hfind hx).2
  case rolled =>
    intro w n hw hk
    have hsome := h.rolled w n hw hk
    dsimp only
    rw [Table.find_drop_ne _ _ _ ?_]
    · exact hsome
    · rintro rfl
      exact hstate ((h.rolling n e he).mpr ⟨w, hw, hk⟩)

/-- The Lot Table with states rewritten stays sound when a lot is then ROLLING exactly while its rollout runs, and the
CURRENT lots stay one of a type. -/
theorem LotsSound.restate (h : LotsSound s) {f : Nat → Lot → LotState} (e : t.store = s.store)
    (hwf : Table.wf t.lots.entries) (hlength : t.lots.entries.length = s.lots.entries.length)
    (hcount : t.lots.count = s.lots.count)
    (hentries : ∀ n, Table.find n t.lots.entries =
      (Table.find n s.lots.entries).map fun x => { x with state := f n x })
    (hcurrent : ∀ a b x y, Table.find a s.lots.entries = some x → Table.find b s.lots.entries = some y →
      f a x = .current → f b y = .current → x.type = y.type → a = b)
    (hrolling : ∀ n x, Table.find n s.lots.entries = some x →
      (f n x = .rolling ↔ ∃ w, t.sweeps.engine = .running w ∧ w.kind = .rollout n))
    (hrolled : ∀ w n, t.sweeps.engine = .running w → w.kind = .rollout n →
      (Table.find n s.lots.entries).isSome = true) : LotsSound t := by
  have hfind : ∀ {n x}, Table.find n t.lots.entries = some x →
      ∃ y, Table.find n s.lots.entries = some y ∧ x = { y with state := f n y } := by
    intro n x hx
    rw [hentries] at hx
    obtain ⟨y, hy, rfl⟩ := Option.map_eq_some_iff.mp hx
    exact ⟨y, hy, rfl⟩
  have hnames : ∀ n l, t.lane n = some l → NamesLots t.lots.entries l := by
    intro n l hl
    rw [lane_of_store_eq e] at hl
    exact (h.names hl).of_find fun m x _ hx => ⟨{ x with state := f m x }, by rw [hentries, hx]; rfl, rfl⟩
  constructor
  case canonical => exact hwf
  case count => rw [hcount, hlength]; exact h.count
  case capacity => rw [hlength]; exact h.capacity
  case numbers =>
    intro n x hx
    obtain ⟨y, hy, rfl⟩ := hfind hx
    exact h.numbers n y hy
  case references =>
    intro n x hx
    obtain ⟨y, hy, rfl⟩ := hfind hx
    exact h.references n y hy
  case users =>
    intro n x hx
    obtain ⟨y, hy, rfl⟩ := hfind hx
    rw [e]
    exact h.users n y hy
  case active => exact fun n l hl => (hnames n l hl).active
  case pendingLot => exact fun n l p hl => (hnames n l hl).pendingLot p
  case oneCurrent =>
    intro a b x y hx hy h1 h2 h3
    obtain ⟨x', hx', rfl⟩ := hfind hx
    obtain ⟨y', hy', rfl⟩ := hfind hy
    exact hcurrent a b x' y' hx' hy' h1 h2 h3
  case rolling =>
    intro n x hx
    obtain ⟨y, hy, rfl⟩ := hfind hx
    exact hrolling n y hy
  case rolled =>
    intro w n hw hk
    rw [hentries, Option.isSome_map]
    exact hrolled w n hw hk

theorem find_setLotState_state (n m : Nat) (st : LotState) (x : Table Lot) :
    Table.find m (setLotState n st x) =
      (Table.find m x).map fun l => { l with state := if m = n then st else l.state } := by
  rw [find_setLotState]
  congr 1
  funext l
  split <;> rfl

@[simp] theorem length_setLotState (n : Nat) (st : LotState) (x : Table Lot) : (setLotState n st x).length = x.length :=
  Table.length_modify ..

/-! ### The start of a sweep (R145, R147) -/

theorem SweepsSound.tag_of_not_closing (h : SweepsSound s)
    (hk : ∀ w, s.sweeps.engine = .running w → w.kind ≠ .periodClose) {n : Nat} {l : Lane} (hl : s.lane n = some l) :
    l.periodTag = s.sweeps.periodNumber := by
  rcases h.tags n l hl with htag | ⟨w, hw, hclose, -, -⟩
  · exact htag
  · exact absurd hclose (hk w hw)

theorem SweepsSound.tag_of_idle (h : SweepsSound s) (hidle : s.sweeps.engine = .idle) {n : Nat} {l : Lane}
    (hl : s.lane n = some l) : l.periodTag = s.sweeps.periodNumber :=
  h.tag_of_not_closing (fun w hw => by rw [hidle] at hw; cases hw) hl

/-- A Sweep Engine at the beginning of a sweep that is no period close. -/
theorem SweepsSound.started (h : SweepsSound s) (e : t.store = s.store) {k : SweepKind} {o : Origin}
    (ho : k ≠ .overdue → o = .request) (hengine : t.sweeps.engine = .running (Sweep.start k o))
    (hperiod : t.sweeps.periodNumber = s.sweeps.periodNumber)
    (htags : ∀ n l, s.lane n = some l → l.periodTag = s.sweeps.periodNumber) : SweepsSound t where
  cursor w hw := by
    rw [hengine] at hw
    cases hw
    exact ⟨Nat.zero_lt_succ _, Nat.le_refl _⟩
  origin w hw hkind := by
    rw [hengine] at hw
    cases hw
    exact ho hkind
  pendingOverdue _ := ⟨_, hengine⟩
  period := by rw [hperiod]; exact h.period
  tags n l hl := by
    rw [lane_of_store_eq e] at hl
    rw [hperiod]
    exact .inl (htags n l hl)

/-- A Sweep Engine at rest. -/
theorem SweepsSound.rested (h : SweepsSound s) (e : t.store = s.store) (hengine : t.sweeps.engine = .idle)
    (hpending : t.sweeps.pendingOverdue = false) (hperiod : t.sweeps.periodNumber = s.sweeps.periodNumber)
    (htags : ∀ n l, s.lane n = some l → l.periodTag = s.sweeps.periodNumber) : SweepsSound t where
  cursor w hw := by rw [hengine] at hw; cases hw
  origin w hw := by rw [hengine] at hw; cases hw
  pendingOverdue hp := by rw [hpending] at hp; cases hp
  period := by rw [hperiod]; exact h.period
  tags n l hl := by
    rw [lane_of_store_eq e] at hl
    rw [hperiod]
    exact .inl (htags n l hl)

/-- A change of the sweeps' records and of the lots' that leaves the other blocks. -/
theorem RecordsSound.withEngine (h : RecordsSound s) (e : t.store = s.store) (hpolicies : t.policies = s.policies)
    (hclock : t.clock = s.clock) (hlots : LotsSound t) (hsweeps : SweepsSound t) (hlist : ListSound t) :
    RecordsSound t where
  pool := h.pool.of_eq e
  directory := h.directory.of_eq e
  policies := h.policies.of_eq e hpolicies
  lots := hlots
  lanes := h.lanes.of_eq e
  clock := h.clock.of_eq hclock
  sweeps := hsweeps
  list := hlist

/-- The Lot Table stays sound when the engine moves from and to no rollout. -/
theorem LotsSound.of_no_rollout (h : LotsSound s) (e : t.store = s.store) (hlots : t.lots = s.lots)
    (hbefore : ∀ w n, s.sweeps.engine = .running w → w.kind ≠ .rollout n)
    (hafter : ∀ w n, t.sweeps.engine = .running w → w.kind ≠ .rollout n) : LotsSound t := by
  have hnot : ∀ n x, Table.find n s.lots.entries = some x → x.state ≠ .rolling := by
    intro n x hx hr
    obtain ⟨w, hw, hk⟩ := (h.rolling n x hx).mp hr
    exact hbefore w n hw hk
  refine h.restate (f := fun _ x => x.state) e (hlots ▸ h.canonical) (by rw [hlots]) (by rw [hlots])
    (fun n => by rw [hlots]; simp) (fun a b x y hx hy => h.oneCurrent a b x y hx hy) (fun n x hx => ?_)
    fun w n hw hk => absurd hk (hafter w n hw)
  exact ⟨fun hr => absurd hr (hnot n x hx), fun ⟨w, hw, hk⟩ => absurd hk (hafter w n hw)⟩

theorem RecordsSound.startOverdue (h : RecordsSound s) (hidle : s.sweeps.engine = .idle) (o : Origin) :
    RecordsSound (s.withSweeps { s.sweeps with engine := .running (Sweep.start .overdue o) }) := by
  refine h.withEngine rfl rfl rfl ?_ ?_ (h.list.of_eq rfl rfl)
  · refine h.lots.of_no_rollout rfl rfl (fun w n hw => by rw [hidle] at hw; cases hw) fun w n hw => ?_
    cases hw
    nofun
  · exact h.sweeps.started (k := .overdue) (o := o) rfl (fun hne => absurd rfl hne) rfl rfl
      fun n l hl => h.sweeps.tag_of_idle hidle hl

theorem RecordsSound.startPeriodClose (h : RecordsSound s) (hidle : s.sweeps.engine = .idle) :
    RecordsSound ((s.withSweeps { s.sweeps with
      periodNumber := (s.sweeps.periodNumber + 1) % 65536 }).startSweep .periodClose) := by
  refine h.withEngine rfl rfl rfl ?_ ⟨?_, ?_, ?_, ?_, ?_⟩ (h.list.of_eq rfl rfl)
  · refine h.lots.of_no_rollout rfl rfl (fun w n hw => by rw [hidle] at hw; cases hw) fun w n hw => ?_
    cases hw
    nofun
  · intro w hw
    cases hw
    exact ⟨Nat.zero_lt_succ _, Nat.le_refl _⟩
  · intro w hw _
    cases hw
    rfl
  · exact fun _ => ⟨_, rfl⟩
  · exact Nat.le_of_lt_succ (Nat.mod_lt _ (by decide))
  · intro n l hl
    refine .inr ⟨_, rfl, rfl, Nat.zero_le _, ?_⟩
    have htag := h.sweeps.tag_of_idle (n := n) hidle hl
    have hperiod := h.sweeps.period
    rw [htag]
    show s.sweeps.periodNumber = ((s.sweeps.periodNumber + 1) % 65536 + 65535) % 65536
    omega

theorem RecordsSound.startRollout (h : RecordsSound s) (hidle : s.sweeps.engine = .idle) {lot : Nat} {e : Lot}
    (he : Table.find lot s.lots.entries = some e) (_hstate : e.state = .announced) :
    RecordsSound ((s.withLots (setLotState lot .rolling s.lots.entries)).startSweep (.rollout lot)) := by
  refine h.withEngine rfl rfl rfl ?_ ?_ (h.list.of_eq rfl rfl)
  · refine h.lots.restate (f := fun n x => if n = lot then .rolling else x.state) rfl (wf_setLotState h.lots.canonical)
      (length_setLotState ..) rfl (fun n => find_setLotState_state lot n .rolling _) ?_ ?_ ?_
    · intro a b x y hx hy h1 h2 h3
      split at h1
      · cases h1
      split at h2
      · cases h2
      exact h.lots.oneCurrent a b x y hx hy h1 h2 h3
    · intro n x hx
      split
      · rename_i hn
        exact ⟨fun _ => ⟨_, rfl, by rw [hn]; rfl⟩, fun _ => rfl⟩
      · rename_i hn
        constructor
        · intro hr
          obtain ⟨w, hw, -⟩ := (h.lots.rolling n x hx).mp hr
          rw [hidle] at hw
          cases hw
        · rintro ⟨w, hw, hk⟩
          cases hw
          cases hk
          exact absurd rfl hn
    · intro w n hw hk
      cases hw
      cases hk
      rw [he]
      rfl
  · exact h.sweeps.started (k := .rollout lot) (o := .request) rfl (fun _ => rfl) rfl rfl
      fun n l hl => h.sweeps.tag_of_idle hidle hl

/-! ### The end of a sweep (R146, R153, R47) -/

/-- What the end of a sweep may do to a lot, by the sweep's kind: a rollout that is COMPLETED, CANCELLED or BROKEN
leaves no lot ROLLING; the other sweeps touch no lot. -/
theorem LotsSound.endSweep (h : LotsSound s) {w : Sweep} {k : SweepKind} {ending : Ending}
    (hw : s.sweeps.engine = .running w) (hk : k = w.kind) (hending : ∀ lot, k = .rollout lot → ending ≠ .abandoned)
    (e : t.store = s.store) (hentries : t.lots.entries = endLots k ending s.lots.entries)
    (hcount : t.lots.count = s.lots.count)
    (hafter : ∀ w' n, t.sweeps.engine = .running w' → w'.kind ≠ .rollout n) : LotsSound t := by
  have hrunning : ∀ n x, Table.find n s.lots.entries = some x → (x.state = .rolling ↔ k = .rollout n) := by
    intro n x hx
    rw [h.rolling n x hx, hk]
    constructor
    · rintro ⟨w', hw', hk'⟩
      rw [hw] at hw'
      cases hw'
      exact hk'
    · exact fun hk' => ⟨w, hw, hk'⟩
  have hset : ∀ lot, k = .rollout lot → t.lots.entries = setLotState lot .announced s.lots.entries → LotsSound t := by
    intro lot hlot hset
    refine h.restate (f := fun n x => if n = lot then .announced else x.state) e
      (by rw [hset]; exact wf_setLotState h.canonical) (by rw [hset, length_setLotState]) hcount
      (fun n => by rw [hset]; exact find_setLotState_state lot n .announced _) ?_ ?_
      fun w' n hw' hk' => absurd hk' (hafter w' n hw')
    · intro a b x y hx hy h1 h2 h3
      split at h1
      · cases h1
      split at h2
      · cases h2
      exact h.oneCurrent a b x y hx hy h1 h2 h3
    · intro n x hx
      refine ⟨fun hr => ?_, fun ⟨w', hw', hk'⟩ => absurd hk' (hafter w' n hw')⟩
      split at hr
      · cases hr
      · rename_i hn
        rw [hrunning n x hx, hlot] at hr
        cases hr
        exact absurd rfl hn
  cases hkind : k with
  | periodClose | overdue =>
    subst hkind
    have hsame : t.lots = s.lots := by cases hs : s.lots; cases ht : t.lots; simp_all [endLots]
    refine h.of_no_rollout e hsame (fun w' n hw' hk' => ?_) hafter
    rw [hw] at hw'
    cases hw'
    rw [← hk] at hk'
    cases hk'
  | rollout lot =>
    cases hend : ending with
    | cancelled => exact hset lot hkind (by rw [hentries, hkind, hend]; rfl)
    | broken => exact hset lot hkind (by rw [hentries, hkind, hend]; rfl)
    | abandoned => exact absurd hend (hending lot hkind)
    | completed =>
      have hpromote : t.lots.entries = promoteLot lot s.lots.entries := by rw [hentries, hkind, hend]; rfl
      have hsome := h.rolled w lot hw (hk.symm.trans hkind)
      obtain ⟨rolling, hrolling⟩ := Option.isSome_iff_exists.mp hsome
      refine h.restate (f := fun n x => if n = lot then .current
          else if x.type = rolling.type ∧ x.state = .current then .superseded else x.state) e
        (by rw [hpromote]; exact wf_promoteLot h.canonical) (by rw [hpromote]; simp [promoteLot, hrolling]) hcount
        (fun n => ?_) ?_ ?_ fun w' n hw' hk' => absurd hk' (hafter w' n hw')
      · rw [hpromote, find_promoteLot, hrolling]
        dsimp only
        congr 1
        funext x
        split
        · rfl
        · split <;> rfl
      · have hcurrent : ∀ a x, Table.find a s.lots.entries = some x →
            (if a = lot then LotState.current else if x.type = rolling.type ∧ x.state = .current then .superseded
              else x.state) = .current → a = lot ∧ x.type = rolling.type ∨
                a ≠ lot ∧ x.type ≠ rolling.type ∧ x.state = .current := by
          intro a x hx hc
          split at hc
          · rename_i ha
            subst ha
            rw [hrolling] at hx
            cases hx
            exact .inl ⟨rfl, rfl⟩
          · rename_i ha
            split at hc
            · cases hc
            · rename_i hne
              exact .inr ⟨ha, fun ht => hne ⟨ht, hc⟩, hc⟩
        intro a b x y hx hy h1 h2 h3
        rcases hcurrent a x hx h1 with ⟨ha, hxt⟩ | ⟨-, hxt, hxs⟩ <;> rcases hcurrent b y hy h2 with ⟨hb, hyt⟩ | ⟨-, hyt, hys⟩
        · rw [ha, hb]
        · exact absurd (h3.symm.trans hxt) hyt
        · exact absurd (h3.trans hyt) hxt
        · exact h.oneCurrent a b x y hx hy hxs hys h3
      · intro n x hx
        refine ⟨fun hr => ?_, fun ⟨w', hw', hk'⟩ => absurd hk' (hafter w' n hw')⟩
        split at hr
        · cases hr
        · rename_i hn
          split at hr
          · cases hr
          · rw [hrunning n x hx, hkind] at hr
            cases hr
            exact absurd rfl hn

/-- The engine after a sweep has ended runs no rollout: it is IDLE or begins the overdue sweep that was pending. -/
theorem endSweep_engine (s : State) (ending : Ending) (w : Sweep) :
    (s.endSweep ending w).sweeps.engine = .idle ∨
      (s.endSweep ending w).sweeps.engine = .running (Sweep.start .overdue .deadline) := by
  simp only [State.endSweep]
  split
  · exact .inr rfl
  · exact .inl rfl

theorem endSweep_no_rollout (s : State) (ending : Ending) (w : Sweep) (w' : Sweep) (n : Nat)
    (hw' : (s.endSweep ending w).sweeps.engine = .running w') : w'.kind ≠ .rollout n := by
  rcases endSweep_engine s ending w with h | h <;> rw [h] at hw' <;> cases hw'
  nofun

theorem ListSound.endSweep (h : ListSound s) (ending : Ending) (w : Sweep) : ListSound (s.endSweep ending w) := by
  cases hsignals : ending.byEngine && decide (w.origin = .request) with
  | true => exact h.owe rfl (by simp only [State.endSweep, hsignals, if_true])
  | false => exact h.of_eq rfl (by simp only [State.endSweep, hsignals, Bool.false_eq_true, if_false])

/-- A sweep that the engine itself ends, COMPLETED or CANCELLED, once every lane's tag is the period number. -/
theorem RecordsSound.endSweep (h : RecordsSound s) {w w₀ : Sweep} {ending : Ending}
    (hw : s.sweeps.engine = .running w₀) (hk : w.kind = w₀.kind) (hending : ending.byEngine = true)
    (htags : ∀ n l, s.lane n = some l → l.periodTag = s.sweeps.periodNumber) :
    RecordsSound (s.endSweep ending w) := by
  refine h.withEngine rfl rfl rfl ?_ ?_ (h.list.endSweep ending w)
  · exact h.lots.endSweep hw hk (by rintro _ - rfl; cases hending) rfl rfl rfl (endSweep_no_rollout s ending w)
  · cases hp : s.sweeps.pendingOverdue with
    | true =>
      exact h.sweeps.started (k := .overdue) (o := .deadline) rfl (fun hne => absurd rfl hne)
        (by simp [State.endSweep, hending, hp]) rfl htags
    | false =>
      exact h.sweeps.rested rfl (endSweep_idle s ending w hp) (by simp [State.endSweep, hp]) rfl htags

/-- The end of a step, once the period close of the lane at the cursor, if that is the sweep, is done (R145). -/
theorem RecordsSound.advance (h : RecordsSound s) {w : Sweep} (hw : s.sweeps.engine = .running w) (worked : Bool)
    (hdone : w.kind = .periodClose → ∀ l, s.lane w.cursor = some l → l.periodTag = s.sweeps.periodNumber) :
    RecordsSound (s.advance w worked) := by
  obtain ⟨hcursor, hsteps⟩ := h.sweeps.cursor w hw
  have htags : ∀ n l, s.lane n = some l → l.periodTag = s.sweeps.periodNumber ∨
      w.kind = .periodClose ∧ w.cursor + 1 ≤ n ∧ l.periodTag = (s.sweeps.periodNumber + 65535) % 65536 := by
    intro n l hl
    rcases h.sweeps.tags n l hl with htag | ⟨w', hw', hclose, hle, htag⟩
    · exact .inl htag
    · rw [hw] at hw'
      cases hw'
      rcases Nat.lt_or_ge w.cursor n with hlt | hge
      · exact .inr ⟨hclose, hlt, htag⟩
      · obtain rfl : n = w.cursor := Nat.le_antisymm hge hle
        exact .inl (hdone hclose l hl)
  by_cases hlast : w.cursor + 1 < 1536
  · rw [advance_within s w worked hlast]
    refine h.withEngine rfl rfl rfl ?_ ⟨?_, ?_, ?_, h.sweeps.period, ?_⟩ (h.list.of_eq rfl rfl)
    · refine h.lots.restate (f := fun _ x => x.state) rfl h.lots.canonical rfl rfl (fun n => by simp)
        (fun a b x y hx hy => h.lots.oneCurrent a b x y hx hy) (fun n x hx => ?_) fun w' n hw' hk' => ?_
      · rw [h.lots.rolling n x hx]
        constructor
        · rintro ⟨w', hw', hk'⟩
          rw [hw] at hw'
          cases hw'
          exact ⟨_, rfl, hk'⟩
        · rintro ⟨w', hw', hk'⟩
          cases hw'
          exact ⟨w, hw, hk'⟩
      · cases hw'
        exact h.lots.rolled w n hw hk'
    · intro w' hw'
      cases hw'
      refine ⟨hlast, ?_⟩
      dsimp only
      split <;> omega
    · intro w' hw' hk'
      cases hw'
      exact h.sweeps.origin w hw hk'
    · exact fun _ => ⟨_, rfl⟩
    · intro n l hl
      rcases htags n l hl with htag | ⟨hclose, hle, htag⟩
      · exact .inl htag
      · exact .inr ⟨_, rfl, hclose, hle, htag⟩
  · rw [advance_last s w worked hlast]
    refine h.endSweep hw rfl rfl fun n l hl => ?_
    rcases htags n l hl with htag | ⟨-, hle, -⟩
    · exact htag
    · have := h.pool.place_lt hl
      omega

/-! ### The work of the sweep steps (R149, R152, R140) -/

theorem RecordsSound.periodCloseAt (h : RecordsSound s) (n : Nat) :
    RecordsSound (periodCloseAt n s).1 ∧ (periodCloseAt n s).1.sweeps = s.sweeps ∧
      ∀ l, (periodCloseAt n s).1.lane n = some l → l.periodTag = s.sweeps.periodNumber := by
  unfold Machine.periodCloseAt
  split
  · rename_i hl
    exact ⟨h, rfl, fun l hl' => by rw [hl] at hl'; cases hl'⟩
  · rename_i l hl
    split
    · rename_i htag
      exact ⟨h, rfl, fun l' hl' => by rw [hl] at hl'; cases hl'; exact htag⟩
    · refine ⟨h.putLane hl ⟨⟨rfl, rfl, rfl⟩, rfl, rfl, rfl, rfl⟩ (.inr rfl)
        ((h.lanes n l hl).closeLane h.sweeps.period), rfl, fun l' hl' => ?_⟩
      rw [putLane_lane_self] at hl'
      cases hl'
      rfl

theorem RecordsSound.rolloutAt (h : RecordsSound s) {lot : Nat} {e : Lot}
    (he : Table.find lot s.lots.entries = some e) (n : Nat) :
    RecordsSound (rolloutAt lot e.type n s).1 ∧ (rolloutAt lot e.type n s).1.sweeps = s.sweeps := by
  unfold Machine.rolloutAt
  split
  · exact ⟨h, rfl⟩
  · rename_i l hl
    split
    · exact ⟨h, rfl⟩
    · rename_i hwork
      simp only [not_or, not_not] at hwork
      obtain ⟨htype, hactive, hpending⟩ := hwork
      refine ⟨?_, rfl⟩
      have w : Rewrites n l { l with pendingLot := some lot } s
        ((s.withLots (addUser lot (dropUser? l.pendingLot s.lots.entries))).putLane n
          { l with pendingLot := some lot }) := ⟨hl, rfl⟩
      have hnames := h.lots.names hl
      have hnames' : NamesLots s.lots.entries { l with pendingLot := some lot } :=
        ⟨hnames.active, fun p hp => by cases hp; exact ⟨Ne.symm hactive, e, he, htype.symm⟩⟩
      refine h.rewrite w ⟨rfl, rfl, rfl⟩ { h.lanes n l hl with } (.inl rfl) rfl rfl rfl ?_ (h.list.rewrite w rfl .rfl rfl)
      refine h.lots.rewrite h.pool w (f := fun m u => u - (if l.pendingLot = some m then 1 else 0) +
        if m = lot then 1 else 0) ?_ rfl rfl ?_ hnames'
      · show addUser lot (dropUser? l.pendingLot s.lots.entries) = _
        rw [dropUser?_eq_recount, addUser_eq_recount, recount_recount]
      · intro m u hu
        rw [hnames.uses_toNat] at hu ⊢
        rw [hnames'.uses_toNat]
        have hne : l.pendingLot = some m → m ≠ l.activeLot := fun hm => (hnames.pendingLot m hm).1
        simp only [Option.some.injEq, eq_comm (a := lot)]
        omega

theorem RecordsSound.overdueAt (h : RecordsSound s) {n : Nat} {worked : Bool} (ht : overdueAt n s = .ok (t, worked)) :
    RecordsSound t ∧ t.sweeps = s.sweeps := by
  rcases overdueAt_cases ht with rfl | ⟨l, pol, hl, hheld, -, rfl⟩
  · exact ⟨h, rfl⟩
  · refine ⟨RecordsSound.raise ?_ _ _ _, State.raise_sweeps ..⟩
    exact h.putLane hl ⟨⟨rfl, rfl, rfl⟩, rfl, rfl, rfl, rfl⟩ (.inl rfl) ((h.lanes n l hl).markOverdue hheld)

/-! ### The clock (R130 to R136) -/

theorem RecordsSound.withClock (h : RecordsSound s) (c : DayClock) (hday : c.day ≤ 65535) (hminute : c.minute ≤ 1439)
    (hbase : c.weekdayBase ≤ 6) (hdeadline : c.deadline ≤ 1439) : RecordsSound (s.withClock c) where
  pool := h.pool.of_eq rfl
  directory := h.directory.of_eq rfl
  policies := h.policies.of_eq rfl rfl
  lots := h.lots.of_eq rfl rfl rfl
  lanes := h.lanes.of_eq rfl
  clock := ⟨hday, hminute, hbase, hdeadline⟩
  sweeps := h.sweeps.of_eq rfl rfl
  list := h.list.of_eq rfl rfl

theorem RecordsSound.advanced (h : RecordsSound s) (hlast : s.clock.atLastMoment = false) :
    RecordsSound (s.withClock s.clock.advanced) := by
  obtain ⟨hday, hminute, hbase, hdeadline⟩ := h.clock
  have hlast : ¬(s.clock.day = 65535 ∧ s.clock.minute = 1439) := by
    rintro ⟨h1, h2⟩
    simp [DayClock.atLastMoment, Config.lastDay, Config.lastMinute, h1, h2] at hlast
  unfold DayClock.advanced
  split
  · rename_i hlt
    exact h.withClock _ hday hlt hbase hdeadline
  · rename_i hge
    simp only [Config.lastMinute] at hge
    refine h.withClock _ ?_ (Nat.zero_le _) hbase hdeadline
    show s.clock.day + 1 ≤ 65535
    omega

theorem RecordsSound.askOverdue (h : RecordsSound s) : RecordsSound s.askOverdue := by
  unfold State.askOverdue
  split
  · rename_i hidle
    exact h.startOverdue hidle .deadline
  · rename_i w hw
    refine h.withEngine rfl rfl rfl (h.lots.of_eq rfl rfl rfl) ?_ (h.list.of_eq rfl rfl)
    exact ⟨h.sweeps.cursor, h.sweeps.origin, fun _ => ⟨w, hw⟩, h.sweeps.period, h.sweeps.tags⟩

theorem RecordsSound.tick (h : RecordsSound s) : RecordsSound s.tick :=
  tick_keeps h (h.withClock _ h.clock.day h.clock.minute h.clock.weekdayBase h.clock.deadline)
    (fun hlast => h.advanced hlast) fun hlast => (h.advanced hlast).askOverdue

/-! ### The Attention List (R163, R168, R169) -/

/-- The records stay sound when only the Attention List changes, to a sound one. -/
theorem RecordsSound.withAttention (h : RecordsSound s) (a : AttentionList) (ha : ListSound (s.withAttention a)) :
    RecordsSound (s.withAttention a) :=
  h.withEngine rfl rfl rfl (h.lots.of_eq rfl rfl rfl) (h.sweeps.of_eq rfl rfl) ha

/-- Only the mode and the pulses of the list change, as the mode allows. -/
theorem ListSound.withPulses (h : ListSound s) {a : AttentionList} (horder : a.order = s.attention.order)
    (hlength : a.length = s.attention.length) (howed : a.pulsesOwed ≤ 255)
    (hlevel : a.mode = .level → a.pulsesOwed = 0) (hpulse : a.pulseInProgress = true → 0 < a.pulsesOwed) :
    ListSound (s.withAttention a) where
  once := by rw [State.withAttention_attention, horder]; exact h.once
  length := by rw [State.withAttention_attention, horder, hlength]; exact h.length
  listed n := by rw [State.withAttention_attention, horder]; exact h.listed n
  stamped := h.stamped
  owed := howed
  level := hlevel
  pulse := hpulse

theorem RecordsSound.takeNotice (h : RecordsSound s) {n : Nat} {rest : List Nat} {l : Lane}
    (horder : s.attention.order = n :: rest) (hl : s.lane n = some l) :
    RecordsSound ((s.putLane n { l with causes := .empty, joined := none }).withAttention
      { s.attention with order := rest, length := s.attention.length - 1 }) := by
  have w : Rewrites n l { l with causes := .empty, joined := none } s
    ((s.putLane n { l with causes := .empty, joined := none }).withAttention
      { s.attention with order := rest, length := s.attention.length - 1 }) := ⟨hl, rfl⟩
  have honce := h.list.once
  rw [horder] at honce
  obtain ⟨hnotMem, hrest⟩ := List.nodup_cons.mp honce
  refine h.rewrite w ⟨rfl, rfl, rfl⟩ ((h.lanes n l hl).withCauses _ _) (.inl rfl) rfl rfl rfl
    (h.lots.rewrite_same h.pool w rfl rfl rfl rfl rfl) ?_
  constructor
  case once => exact hrest
  case length =>
    show s.attention.length - 1 = rest.length
    rw [h.list.length, horder, List.length_cons, Nat.add_sub_cancel]
  case listed =>
    intro m
    have hlisted := h.list.listed m
    rw [horder, List.mem_cons] at hlisted
    rw [State.withAttention_attention, w.lane]
    dsimp only
    split
    · rename_i hm
      subst hm
      simp [hnotMem]
    · rename_i hm
      rw [← hlisted]
      simp [hm]
  case stamped => exact w.forall_lane (fun m x _ hx => h.list.stamped m x hx) (by simp)
  case owed => exact h.list.owed
  case level => exact h.list.level
  case pulse => exact h.list.pulse

/-! ### The resets (R182 to R185) -/

theorem get_reset_policies (u : ProcessType) : State.reset.policies.get u = .undefined := by
  match u with
  | 0 | 1 | 2 | 3 | 4 | 5 | 6 | 7 => rfl

theorem reset_lane_ne (n : Nat) (l : Lane) : State.reset.lane n ≠ some l := by
  intro h
  cases h

theorem reset_lot_ne (n : Nat) (e : Lot) : Table.find n State.reset.lots.entries ≠ some e := by
  intro h
  cases h

theorem reset_engine_ne (w : Sweep) : State.reset.sweeps.engine ≠ .running w := by
  intro h
  cases h

/-- The records after power-on clearing are sound. -/
theorem recordsSound_reset : RecordsSound State.reset where
  pool := ⟨.nil, fun _ he => absurd he (List.not_mem_nil), rfl⟩
  directory := ⟨.nil, rfl, Nat.zero_le _, fun _ he => absurd he (List.not_mem_nil), fun _ he => absurd he (List.not_mem_nil),
    fun n l hl => absurd hl (reset_lane_ne n l)⟩
  policies := ⟨fun u p hp => by (rw [get_reset_policies] at hp; cases hp),
    fun u => by (rw [get_reset_policies]; rfl), fun n l hl => absurd hl (reset_lane_ne n l)⟩
  lots := ⟨.nil, rfl, Nat.zero_le _, fun n e he => absurd he (reset_lot_ne n e),
    fun n e he => absurd he (reset_lot_ne n e), fun n e he => absurd he (reset_lot_ne n e),
    fun n l hl => absurd hl (reset_lane_ne n l), fun n l _ hl => absurd hl (reset_lane_ne n l),
    fun n _ e _ he => absurd he (reset_lot_ne n e), fun n e he => absurd he (reset_lot_ne n e),
    fun w _ hw => absurd hw (reset_engine_ne w)⟩
  lanes := fun n l hl => absurd hl (reset_lane_ne n l)
  clock := ⟨Nat.zero_le _, Nat.zero_le _, Nat.zero_le _, by decide⟩
  sweeps := ⟨fun w hw => absurd hw (reset_engine_ne w), fun w hw => absurd hw (reset_engine_ne w),
    fun hp => absurd hp Bool.false_ne_true, Nat.zero_le _, fun n l hl => absurd hl (reset_lane_ne n l)⟩
  list := ⟨.nil, rfl, fun n => ⟨fun hn => absurd hn List.not_mem_nil, fun ⟨l, hl, _⟩ => absurd hl (reset_lane_ne n l)⟩,
    fun n l hl => absurd hl (reset_lane_ne n l), Nat.zero_le _, fun _ => rfl, fun hp => absurd hp Bool.false_ne_true⟩

theorem SameRecords.of_reset (e : SameRecords State.reset t) : RecordsSound t := e.sound recordsSound_reset

/-- What a warm reset makes of the engine and the lots, before it clears the flags: a period close is kept, and any
other sweep leaves the engine IDLE and every lane's tag the period number (R159). -/
theorem RecordsSound.breakSweep (h : RecordsSound s) :
    s.breakSweep.store = s.store ∧ s.breakSweep.policies = s.policies ∧ s.breakSweep.clock = s.clock ∧
    s.breakSweep.attention = s.attention ∧ s.breakSweep.sweeps.periodNumber = s.sweeps.periodNumber ∧
    LotsSound s.breakSweep ∧ (s.breakSweep.sweeps.engine = s.sweeps.engine ∨ s.breakSweep.sweeps.engine = .idle ∧
      ∀ n l, s.lane n = some l → l.periodTag = s.sweeps.periodNumber) := by
  have hend : ∀ w ending, s.sweeps.engine = .running w → w.kind ≠ .periodClose → ending.byEngine = false →
      (∀ lot, w.kind = .rollout lot → ending ≠ .abandoned) →
      (s.endSweep ending w).store = s.store ∧ (s.endSweep ending w).policies = s.policies ∧
      (s.endSweep ending w).clock = s.clock ∧ (s.endSweep ending w).attention = s.attention ∧
      (s.endSweep ending w).sweeps.periodNumber = s.sweeps.periodNumber ∧ LotsSound (s.endSweep ending w) ∧
      ((s.endSweep ending w).sweeps.engine = s.sweeps.engine ∨ (s.endSweep ending w).sweeps.engine = .idle ∧
        ∀ n l, s.lane n = some l → l.periodTag = s.sweeps.periodNumber) := by
    intro w ending hw hclose hby hending
    refine ⟨rfl, rfl, rfl, by simp [State.endSweep, hby], rfl,
      h.lots.endSweep hw rfl hending rfl rfl rfl (endSweep_no_rollout s ending w),
      .inr ⟨by simp [State.endSweep, hby], fun n l hl => h.sweeps.tag_of_not_closing (fun w' hw' => ?_) hl⟩⟩
    rw [hw] at hw'
    cases hw'
    exact hclose
  unfold State.breakSweep
  split
  · exact ⟨rfl, rfl, rfl, rfl, rfl, h.lots, .inl rfl⟩
  · rename_i w hw
    split
    · exact ⟨rfl, rfl, rfl, rfl, rfl, h.lots, .inl rfl⟩
    · rename_i lot hk
      exact hend w .broken hw (by rw [hk]; nofun) rfl fun _ _ => nofun
    · rename_i hk
      exact hend w .abandoned hw (by rw [hk]; nofun) rfl fun lot hlot => by rw [hk] at hlot; cases hlot

theorem RecordsSound.execWarmReset (h : RecordsSound s) : Ends RecordsSound (execWarmReset s) := by
  unfold Machine.execWarmReset
  split
  · exact (ends_next _).mpr h
  · refine (ends_next _).mpr ?_
    obtain ⟨hstore, hpolicies, hclock, hattention, hperiod, hlots, hengine⟩ := h.breakSweep
    refine h.withEngine hstore hpolicies hclock (hlots.of_eq rfl rfl rfl) ?_ ?_
    · rcases hengine with hengine | ⟨hidle, htags⟩
      · refine ⟨?_, ?_, nofun, ?_, ?_⟩
        · intro w hw; exact h.sweeps.cursor w (hengine.symm.trans hw)
        · intro w hw; exact h.sweeps.origin w (hengine.symm.trans hw)
        · exact hperiod.le.trans h.sweeps.period
        · intro n l hl
          dsimp only
          rw [hperiod, hengine]
          exact h.sweeps.tags n l ((lane_of_store_eq hstore n).symm.trans hl)
      · exact h.sweeps.rested hstore hidle rfl hperiod htags
    · have hlist : ListSound (s.withAttention { s.attention with pulsesOwed := 0, pulseInProgress := false }) :=
        h.list.withPulses rfl rfl (Nat.zero_le _) (fun _ => rfl) nofun
      refine hlist.of_eq hstore ?_
      dsimp only
      rw [hattention]
      rfl

/-! ### Every command (R1 to R185) -/

theorem RecordsSound.withFramer (h : RecordsSound s) (p : Port) (f : Framer) : RecordsSound (s.withFramer p f) :=
  h.withPort p _

theorem RecordsSound.drive (h : RecordsSound s) (line : Level) : RecordsSound (s.drive line) :=
  SameRecords.sound (s := s) ⟨rfl, rfl, rfl, rfl, rfl, rfl⟩ h

/-- A request keeps the records sound when its block does. -/
theorem RecordsSound.serve (h : RecordsSound s) {p : Port} {r : Request} {block : State → Taken}
    (hblock : Answers RecordsSound (block s)) : Ends RecordsSound (serve p r block s) :=
  ends_serve h (fun _ reply ht => ht.hold p reply) hblock

theorem RecordsSound.putLane_same (h : RecordsSound s) {n : Nat} {l l' : Lane} (hl : s.lane n = some l)
    (hties : l.SameTies l') (htag : l'.periodTag = l.periodTag) (hrange : LaneInRange l → LaneInRange l') :
    RecordsSound (s.putLane n l') := h.putLane hl hties (.inl htag) (hrange (h.lanes n l hl))

theorem RecordsSound.createLaneBlock (h : RecordsSound s) {c : LaneCreation} (hstore : c.store ≤ 65535) :
    Answers RecordsSound (createLaneBlock c s) := by
  refine answers_createLaneBlock c h fun slot type active hslot hne hempty hpolicy hactive hplace hroom => ?_
  obtain ⟨-, hfree, -⟩ := Table.vacant_spec 0 s.store.pool h.pool.canonical fun _ _ => Nat.zero_le _
  obtain ⟨e, he, htype, hcurrent⟩ := lotInState_some h.lots.canonical hactive
  refine h.addLane hfree hplace hempty hroom hpolicy ⟨⟨e, he, htype⟩, fun p hp => ?_⟩
    (newLane_inRange hne hstore h.clock.day h.sweeps.period) rfl rfl rfl
  obtain ⟨e', he', htype', hrolling⟩ := lotInState_some h.lots.canonical hp
  refine ⟨?_, e', he', htype'⟩
  rintro rfl
  rw [show Table.find p s.lots.entries = some e from he] at he'
  cases he'
  rw [hcurrent] at hrolling
  cases hrolling

theorem exec_recordsSound {c : Instr} (hc : c.WellFormed = true) (h : RecordsSound s) :
    Ends RecordsSound (exec c s) := by
  cases c with
  | requestFrameBegin p => exact ends_execRequestFrameBegin p h fun _ => h.withFramer p _
  | requestFrameEnd p bytes =>
    exact ends_execRequestFrameEnd p bytes h (fun reply _ => h.hold p reply) fun _ _ _ _ => h.withFramer p _
  | readFrame p began n => exact ends_execReadFrame p began n h fun x _ _ => h.withPort p x
  | submit rep =>
    exact h.serve (answers_submitBlock rep h fun _ => SameRecords.sound (s := s) ⟨rfl, rfl, rfl, rfl, rfl, rfl⟩ h)
  | collect =>
    exact h.serve (answers_collectBlock h fun _ _ _ => SameRecords.sound (s := s) ⟨rfl, rfl, rfl, rfl, rfl, rfl⟩ h)
  | evaluation =>
    exact ends_execEvaluation h fun q rest t _ _ ht =>
      RecordsSound.evaluateReport (s := { s with queues := { s.queues with intake := rest } })
        (SameRecords.sound (s := s) ⟨rfl, rfl, rfl, rfl, rfl, rfl⟩ h) ht
  | createLane c =>
    refine h.serve (h.createLaneBlock ?_)
    simp only [Instr.WellFormed, Instr.request, Option.all_some, Request.WellFormed, LaneCreation.WellFormed,
      fitsUnsigned, Bool.and_eq_true, decide_eq_true_eq] at hc
    omega
  | editLane x e line =>
    exact (h.drive line).serve (answers_editLaneBlock x e (h.drive line) fun n l hl =>
      (h.drive line).putLane_same hl (editLaneOf_sameTies e l) (editLaneOf_periodTag e l) (·.editLaneOf e))
  | lockLane x line =>
    exact (h.drive line).serve (answers_writeLock true x (h.drive line) fun n l hl =>
      (h.drive line).putLane_same hl ⟨⟨rfl, rfl, rfl⟩, rfl, rfl, rfl, rfl⟩ rfl fun hr => { hr with })
  | unlockLane x line =>
    exact (h.drive line).serve (answers_writeLock false x (h.drive line) fun n l hl =>
      (h.drive line).putLane_same hl ⟨⟨rfl, rfl, rfl⟩, rfl, rfl, rfl, rfl⟩ rfl fun hr => { hr with })
  | retireLane x line =>
    exact (h.drive line).serve (answers_retireLaneBlock x (h.drive line) fun n l hl => (h.drive line).retire hl)
  | retireSite b line =>
    exact (h.drive line).serve (answers_retireSiteBlock b (h.drive line) fun t n l ht hl => ht.retire hl)
  | lookupLane x => exact h.serve (answers_lookupLaneBlock x h)
  | nextLane x => exact h.serve (answers_nextLaneBlock x h)
  | holdLane x =>
    exact h.serve (answers_holdLaneBlock x h fun n l hl =>
      h.putLane_same hl ⟨⟨rfl, rfl, rfl⟩, rfl, rfl, rfl, rfl⟩ rfl (·.hold))
  | releaseLane x =>
    exact h.serve (answers_releaseLaneBlock x h fun n l hl =>
      h.putLane_same hl ⟨⟨rfl, rfl, rfl⟩, rfl, rfl, rfl, rfl⟩ rfl (·.resettle))
  | requalifyLane x =>
    exact h.serve (answers_requalifyLaneBlock x h fun n l hl =>
      h.putLane_same hl ⟨⟨rfl, rfl, rfl⟩, rfl, rfl, rfl, rfl⟩ rfl (·.resettle))
  | setPolicy n b line =>
    exact (h.drive line).serve (answers_setPolicyBlock n b (h.drive line) fun u =>
      (h.drive line).withPolicy u _ (fun q hq => by cases hq; exact storedPolicy_inRange b)
        fun hnone => by cases hnone)
  | setPolicyUndefine n line =>
    exact (h.drive line).serve (answers_setPolicyUndefineBlock n (h.drive line) fun u hu =>
      (h.drive line).withPolicy u none (fun q hq => by cases hq) fun _ => hu)
  | readPolicy n => exact h.serve (answers_readPolicyBlock n h)
  | announceLot lot n refs =>
    exact h.serve (answers_announceLotBlock lot n refs h fun u hlot hnone hroom => h.announceLot u refs hlot hnone hroom)
  | readLot lot => exact h.serve (answers_readLotBlock lot h)
  | readLotFollowing lot => exact h.serve (answers_readLotFollowingBlock lot h)
  | deleteLot lot =>
    exact h.serve (answers_deleteLotBlock lot h fun e he hstate husers =>
      h.withLotTable _ (h.lots.delete he hstate husers))
  | prove rep => exact h.serve (answers_proveBlock rep h)
  | setClock d m b =>
    simp only [Instr.WellFormed, Instr.request, Option.all_some, Request.WellFormed, fitsUnsigned, Bool.and_eq_true,
      decide_eq_true_eq] at hc
    exact h.serve (answers_setClockBlock d m b h
      (h.withClock _ (show d ≤ 65535 by omega) (Nat.min_le_right ..) (Nat.min_le_right ..) h.clock.deadline))
  | startClock =>
    exact h.serve (block := fun s => writeClock { s.clock with running := true } s) ((answers_answerDone ..).mpr
      (h.withClock _ h.clock.day h.clock.minute h.clock.weekdayBase h.clock.deadline))
  | stopClock =>
    exact h.serve (block := fun s => writeClock { s.clock with running := false } s) ((answers_answerDone ..).mpr
      (h.withClock _ h.clock.day h.clock.minute h.clock.weekdayBase h.clock.deadline))
  | readClock => exact h.serve (block := fun s => answerDone s (.clock s.clock)) ((answers_answerDone ..).mpr h)
  | setDeadline m =>
    exact h.serve (block := fun s => writeClock { s.clock with deadline := min m Config.lastMinute } s)
      ((answers_answerDone ..).mpr
        (h.withClock _ h.clock.day h.clock.minute h.clock.weekdayBase (Nat.min_le_right ..)))
  | minuteTick | dayRollover | clockLastMomentStop | deadlineTick => exact (ends_next _).mpr h.tick
  | startPeriodClose => exact h.serve (answers_startPeriodCloseBlock h fun hidle => h.startPeriodClose hidle)
  | startRollout lot =>
    exact h.serve (answers_startRolloutBlock lot h fun e hidle he hstate => h.startRollout hidle he hstate)
  | startOverdue => exact h.serve (answers_startOverdueBlock h fun hidle => h.startOverdue hidle .request)
  | cancelSweep =>
    refine h.serve (answers_cancelSweepBlock h fun w lot hw hk => h.endSweep hw rfl rfl fun n l hl => ?_)
    refine h.sweeps.tag_of_not_closing (fun w' hw' => ?_) hl
    rw [hw] at hw'
    cases hw'
    rw [hk]
    nofun
  | sweepStatus =>
    refine h.serve (block := sweepStatusBlock) ((answers_answerDone ..).mpr ?_)
    exact h.withEngine rfl rfl rfl (h.lots.of_eq rfl rfl rfl)
      ⟨h.sweeps.cursor, h.sweeps.origin, h.sweeps.pendingOverdue, h.sweeps.period, h.sweeps.tags⟩ (h.list.of_eq rfl rfl)
  | periodCloseStep =>
    refine ends_execPeriodCloseStep h fun w hw _ => ?_
    obtain ⟨hrecords, hsweeps, htag⟩ := h.periodCloseAt w.cursor
    exact hrecords.advance (by rw [hsweeps, hw]) _ fun _ l hl => by rw [hsweeps]; exact htag l hl
  | rolloutStep =>
    refine ends_execRolloutStep h fun w lot e hw hk he => ?_
    obtain ⟨hrecords, hsweeps⟩ := h.rolloutAt he w.cursor
    exact hrecords.advance (by rw [hsweeps, hw]) _ fun hclose => by rw [hk] at hclose; cases hclose
  | overdueStep =>
    refine ends_execOverdueStep h fun w t worked hw hk ht => ?_
    obtain ⟨hrecords, hsweeps⟩ := h.overdueAt ht
    exact hrecords.advance (by rw [hsweeps, hw]) _ fun hclose => by rw [hk] at hclose; cases hclose
  | takeNotice => exact h.serve (answers_takeNoticeBlock h fun n rest l horder hl => h.takeNotice horder hl)
  | setAttentionMode m =>
    exact h.serve (answers_setAttentionModeBlock m h fun m =>
      h.withAttention _ (h.list.withPulses rfl rfl (Nat.zero_le _) (fun _ => rfl) nofun))
  | attnPulseStart =>
    exact ends_execAttnPulseStart h fun howed =>
      h.withAttention _ (h.list.withPulses rfl rfl h.list.owed h.list.level fun _ => howed)
  | attnPulseEnd =>
    refine ends_execAttnPulseEnd h (h.withAttention _ (h.list.withPulses rfl rfl ?_ (fun hm => ?_) nofun))
    · exact (Nat.sub_le ..).trans h.list.owed
    · simp [h.list.level hm]
  | status line =>
    exact (h.drive line).serve (block := fun s => answerDone s (.status (statusOf s)))
      ((answers_answerDone ..).mpr (h.drive line))
  | identify => exact h.serve (block := fun s => answerDone s .identity) ((answers_answerDone ..).mpr h)
  | powerOn => exact (ends_next _).mpr (SameRecords.of_reset ⟨rfl, rfl, rfl, rfl, rfl, rfl⟩)
  | clearingEnd =>
    simp only [exec, execClearingEnd]
    split
    · exact (ends_next _).mpr h
    · exact (ends_next _).mpr (SameRecords.of_reset ⟨rfl, rfl, rfl, rfl, rfl, rfl⟩)
  | warmReset => exact h.execWarmReset
  | resetRelease => exact (ends_next _).mpr (SameRecords.sound (s := s) ⟨rfl, rfl, rfl, rfl, rfl, rfl⟩ h)

theorem step_recordsSound (hs : Sound s) (hstep : step s = .next t) : RecordsSound t := by
  rcases step_next_cases hs.pending hstep with ⟨-, rfl⟩ | ⟨c, rest, -, hc, hexec⟩
  · exact hs.records
  · exact exec_recordsSound (s := s.withPending rest) hc
      (SameRecords.sound (s := s) ⟨rfl, rfl, rfl, rfl, rfl, rfl⟩ hs.records) t hexec

theorem step_portsSound (hs : Sound s) (hstep : step s = .next t) : PortsSound t := by
  rcases step_next_cases hs.pending hstep with ⟨-, rfl⟩ | ⟨c, rest, -, -, hexec⟩
  · exact hs.ports
  · exact exec_portsSound (s := s.withPending rest) (hs.ports.of_eq rfl rfl fun p => by cases p <;> rfl) t hexec

end

/-! ### What every step keeps -/

/-- Settles O55: a cause raised lists its lane, a notice taken and a retirement take a lane off, and a lane made holds
no cause. -/
theorem attentionListStaysExact : Obligations.AttentionListStaysExact :=
  fun _ _ hs hstep => (step_recordsSound hs hstep).list

/-- Settles O56: a lane made and a lane retired move the pool and the directory together. -/
theorem laneStoreStaysExact : Obligations.LaneStoreStaysExact :=
  fun _ _ hs hstep => ⟨(step_recordsSound hs hstep).pool, (step_recordsSound hs hstep).directory⟩

/-- Settles O57: every event that moves a lane among lots moves the user counts with it, and the rolling lot's state
moves with its rollout. -/
theorem lotTableStaysExact : Obligations.LotTableStaysExact :=
  fun _ _ hs hstep => (step_recordsSound hs hstep).lots

/-- Settles O58: whatever writes a lane, a policy or the clock writes it in range. -/
theorem lanesPoliciesAndClockStayInRange : Obligations.LanesPoliciesAndClockStayInRange :=
  fun _ _ hs hstep => ⟨(step_recordsSound hs hstep).lanes, (step_recordsSound hs hstep).policies,
    (step_recordsSound hs hstep).clock⟩

/-- Settles O59: a step at the cursor closes the lane there before the cursor passes it, the framers move as Table
10-2 has them, and the queue of commands only loses its front. -/
theorem sweepEngineAndPortsStaySound : Obligations.SweepEngineAndPortsStaySound :=
  fun _ _ hs hstep => ⟨(step_recordsSound hs hstep).sweeps, step_portsSound hs hstep,
    step_pendingSound hs.pending hstep⟩

/-- Settles O53: the records after clearing are empty, the queues hold nothing and the framers are IDLE. -/
theorem resetIsSound : Obligations.ResetIsSound where
  pending := fun _ hc => absurd hc List.not_mem_nil
  ports := .of_idle fun p => by cases p <;> rfl
  queues := queuesSound_of_empty rfl
  pool := recordsSound_reset.pool
  directory := recordsSound_reset.directory
  policies := recordsSound_reset.policies
  lots := recordsSound_reset.lots
  lanes := recordsSound_reset.lanes
  clock := recordsSound_reset.clock
  sweeps := recordsSound_reset.sweeps
  list := recordsSound_reset.list

end Sys2Proof.Machine
end

section
/-! The proofs of this family: which commands stop. A command of a sound state meets every record it names, so the only
stop left is a frame on a port that is TAKING (log entries 8 and 15). -/
namespace Sys2Proof.Machine

/-! ### A judgement is reached wherever the lane's lots can be read -/

theorem RecordsSound.lanesServed {s : State} (h : RecordsSound s) : LanesServed s := by
  refine fun n l hl => ⟨h.policies.defined n l hl, ?_, fun p hp => ?_⟩
  · obtain ⟨e, he, -⟩ := h.lots.active n l hl
    simp [he]
  · obtain ⟨-, e, he, -⟩ := h.lots.pendingLot n l p hl hp
    simp [he]

/-- The lot an accepted report is judged against is in the table: the lane's own, or the report's (R54 to R57). -/
theorem LanesServed.crossedLot {s : State} {n : Nat} {l : Lane} {lot : Nat} {c : LotCase} (h : LanesServed s)
    (hl : s.lane n = some l) (hc : ResolvesTo s l lot c) :
    (crossLane c lot l).activeLot = lot ∧ (Table.find lot s.lots.entries).isSome = true := by
  obtain ⟨-, hactive, hpending⟩ := h n l hl
  cases hc with
  | active e => subst e; exact ⟨rfl, hactive⟩
  | pending _ hp => exact ⟨rfl, hpending lot hp⟩
  | auto e _ _ he => exact ⟨rfl, by simp [he]⟩

/-- The judgement of a report against a lane whose lots can be read (R67). -/
theorem LanesServed.judge_ok {s : State} {n : Nat} {l : Lane} (h : LanesServed s) (hl : s.lane n = some l)
    (pol : Policy) (rep : Report) : ∃ j, judge s.lots.entries pol s.clock.day l rep = .ok j := by
  unfold judge
  split
  · exact ⟨_, rfl⟩
  dsimp only
  split
  · exact ⟨_, rfl⟩
  rename_i hcase
  split
  · exact ⟨_, rfl⟩
  obtain ⟨hactive, hlot⟩ := h.crossedLot hl (resolvesTo_of_resolveLot hcase)
  split
  · rename_i hnone
    rw [hactive] at hnone
    rw [hnone] at hlot
    cases hlot
  · exact ⟨_, rfl⟩

/-- A lane that a report names is served: its policy is defined, and every judgement of it is reached. -/
theorem LanesServed.policy {s : State} {n : Nat} {l : Lane} (h : LanesServed s) (hl : s.lane n = some l) :
    ∃ pol, (s.policies.get l.type).policy = some pol :=
  Option.isSome_iff_exists.mp (h n l hl).1

/-- The trial of PROVE answers wherever the lanes are served (R83). -/
theorem LanesServed.proveBlock_ok {s : State} (h : LanesServed s) (rep : StripReport) :
    ∃ lotCase trial v, proveBlock rep s = answerDone s (.proved lotCase trial v) := by
  unfold proveBlock
  dsimp only
  split
  · exact ⟨_, _, _, rfl⟩
  · rename_i n l hl
    obtain ⟨pol, hpol⟩ := h.policy (lane_of_laneAt hl)
    obtain ⟨j, hj⟩ := h.judge_ok (lane_of_laneAt hl) pol (takeIn rep)
    rw [hpol]
    dsimp only
    rw [hj]
    exact ⟨_, _, _, rfl⟩

/-! ### Blocks that answer, events that do not stop -/

/-- The block answers: it does not stop. -/
def Answered (x : Taken) : Prop := ∀ f, x ≠ .error f

/-- The event does not stop but for a frame that Table 10-2 says cannot occur. -/
def OnlyBusy (x : Host.Outcome State Fault Refusal) : Prop := ∀ f, x = .fault f → f = .frameOnBusyPort

@[simp] theorem answered_ok (x : State × Reply) : Answered (.ok x) := fun _ h => by cases h
@[simp] theorem answered_answer (s : State) (c : ReplyCode) : Answered (answer s c) := answered_ok _
@[simp] theorem answered_answerDone (s : State) (b : DoneBody) : Answered (answerDone s b) := answered_ok _
@[simp] theorem onlyBusy_next (s : State) : OnlyBusy (.next s) := fun _ h => by cases h
@[simp] theorem onlyBusy_fault : OnlyBusy (.fault .frameOnBusyPort) := fun _ h => by cases h; rfl

theorem answered_onLane {name : LaneName} {act : Nat → Lane → State → Taken} {s : State}
    (h : ∀ n l, Answered (act n l s)) : Answered (onLane name act s) := by
  rcases onLane_cases name act s with ⟨-, e⟩ | ⟨-, e⟩ | ⟨n, l, -, e⟩ <;> rw [e]
  · exact answered_ok _
  · exact answered_ok _
  · exact h n l

/-- A request stops only where its block does. -/
theorem onlyBusy_serve {p : Port} {r : Request} {block : State → Taken} {s : State} (h : Answered (block s)) :
    OnlyBusy (serve p r block s) := by
  intro f hf
  unfold serve at hf
  split at hf
  · cases hf
  · cases hf
  · split at hf
    · cases hf
    · rename_i f' hb
      exact absurd hb (h f')

theorem onlyBusy_onSweep {act : Sweep → Option (Host.Outcome State Fault Refusal)} {s : State}
    (h : ∀ w o, s.sweeps.engine = .running w → act w = some o → OnlyBusy o) : OnlyBusy (onSweep act s) := by
  unfold onSweep
  split
  · exact onlyBusy_next s
  · rename_i w hw
    split
    · cases ha : act w with
      | none => exact onlyBusy_next s
      | some o => exact h w o hw ha
    · exact onlyBusy_next s

theorem RecordsSound.answered_takeNoticeBlock {s : State} (h : RecordsSound s) : Answered (takeNoticeBlock s) := by
  unfold takeNoticeBlock
  split
  · exact answered_answer _ _
  rename_i n rest horder
  obtain ⟨l, hl, hcauses⟩ := (h.list.listed n).mp (by simp [horder])
  obtain ⟨stamp, hstamp⟩ := Option.isSome_iff_exists.mp ((h.list.stamped n l hl).mpr hcauses)
  rw [hl]
  dsimp only
  rw [hstamp]
  exact answered_answerDone _ _

theorem LanesServed.onlyBusy_execEvaluation {s : State} (h : LanesServed s) : OnlyBusy (execEvaluation s) := by
  unfold execEvaluation
  split
  · split
    · exact onlyBusy_next s
    · rename_i q rest _
      have hserved : LanesServed { s with queues := { s.queues with intake := rest } } := h
      split
      · exact onlyBusy_next _
      · rename_i f hf
        unfold evaluateReport at hf
        dsimp only at hf
        split at hf
        · cases hf
        · rename_i n l hl
          obtain ⟨pol, hpol⟩ := hserved.policy (lane_of_laneAt hl)
          obtain ⟨j, hj⟩ := hserved.judge_ok (lane_of_laneAt hl) pol q.report
          simp only [hpol, hj] at hf
          cases hf
  · exact onlyBusy_next s

theorem RecordsSound.onlyBusy_execRolloutStep {s : State} (h : RecordsSound s) : OnlyBusy (execRolloutStep s) := by
  refine onlyBusy_onSweep fun w o hw ho => ?_
  split at ho
  · rename_i lot hk
    obtain ⟨e, he⟩ := Option.isSome_iff_exists.mp (h.lots.rolled w lot hw hk)
    rw [he] at ho
    cases ho
    exact onlyBusy_next _
  all_goals cases ho

theorem LanesServed.onlyBusy_execOverdueStep {s : State} (h : LanesServed s) : OnlyBusy (execOverdueStep s) := by
  refine onlyBusy_onSweep fun w o hw ho => ?_
  split at ho
  · split at ho
    · cases ho
      exact onlyBusy_next _
    · rename_i f hf
      unfold overdueAt at hf
      split at hf
      · cases hf
      · rename_i l hl
        obtain ⟨pol, hpol⟩ := h.policy hl
        split at hf
        · cases hf
        · rw [hpol] at hf
          dsimp only at hf
          split at hf <;> cases hf
  all_goals cases ho

/-- From sound records every command ends in a next state, or in the one stop of Table 10-2. -/
theorem exec_onlyBusy {s : State} (h : RecordsSound s) (c : Instr) : OnlyBusy (exec c s) := by
  cases c with
  | requestFrameBegin p =>
    show OnlyBusy (execRequestFrameBegin p s)
    unfold execRequestFrameBegin
    (repeat' split) <;> simp
  | requestFrameEnd p bytes =>
    show OnlyBusy (execRequestFrameEnd p bytes s)
    unfold execRequestFrameEnd
    (repeat' split) <;> simp
  | readFrame p began n =>
    show OnlyBusy (execReadFrame p began n s)
    unfold execReadFrame
    (repeat' split) <;> simp
  | submit rep => exact onlyBusy_serve (by unfold submitBlock; split <;> simp)
  | collect => exact onlyBusy_serve (by unfold collectBlock; split <;> simp)
  | evaluation => exact h.lanesServed.onlyBusy_execEvaluation
  | createLane c =>
    refine onlyBusy_serve ?_
    rcases createLaneBlock_cases c s with ⟨code, e⟩ | ⟨_, _, _, -, -, -, -, -, -, -, -, e⟩ <;> simp [e]
  | editLane x e line => exact onlyBusy_serve (answered_onLane fun n l => by split <;> simp)
  | lockLane x line => exact onlyBusy_serve (answered_onLane fun n l => by split <;> simp)
  | unlockLane x line => exact onlyBusy_serve (answered_onLane fun n l => by split <;> simp)
  | retireLane x line => exact onlyBusy_serve (answered_onLane fun n l => by split <;> simp)
  | retireSite b line => exact onlyBusy_serve (by unfold retireSiteBlock; (repeat' split) <;> simp)
  | lookupLane x => exact onlyBusy_serve (answered_onLane fun n l => answered_answerDone _ _)
  | nextLane x => exact onlyBusy_serve (by unfold nextLaneBlock; (repeat' split) <;> simp)
  | holdLane x => exact onlyBusy_serve (answered_onLane fun n l => answered_answerDone _ _)
  | releaseLane x => exact onlyBusy_serve (answered_onLane fun n l => by split <;> simp [moveTo])
  | requalifyLane x => exact onlyBusy_serve (answered_onLane fun n l => by split <;> simp [moveTo])
  | setPolicy n b line => exact onlyBusy_serve (by unfold setPolicyBlock; (repeat' split) <;> simp)
  | setPolicyUndefine n line => exact onlyBusy_serve (by unfold setPolicyUndefineBlock; (repeat' split) <;> simp)
  | readPolicy n => exact onlyBusy_serve (by unfold readPolicyBlock; (repeat' split) <;> simp)
  | announceLot lot n refs => exact onlyBusy_serve (by unfold announceLotBlock; (repeat' split) <;> simp)
  | readLot lot => exact onlyBusy_serve (by unfold readLotBlock; (repeat' split) <;> simp)
  | readLotFollowing lot => exact onlyBusy_serve (by unfold readLotFollowingBlock; split <;> simp)
  | deleteLot lot => exact onlyBusy_serve (by unfold deleteLotBlock; (repeat' split) <;> simp)
  | prove rep =>
    obtain ⟨_, _, _, e⟩ := h.lanesServed.proveBlock_ok rep
    exact onlyBusy_serve (by simp [e])
  | setClock d m b => exact onlyBusy_serve (by unfold setClockBlock; split <;> simp [writeClock])
  | startClock =>
    exact onlyBusy_serve (block := fun s => writeClock { s.clock with running := true } s) (answered_answerDone _ _)
  | stopClock =>
    exact onlyBusy_serve (block := fun s => writeClock { s.clock with running := false } s) (answered_answerDone _ _)
  | readClock => exact onlyBusy_serve (block := fun s => answerDone s (.clock s.clock)) (answered_answerDone _ _)
  | setDeadline m =>
    exact onlyBusy_serve (block := fun s => writeClock { s.clock with deadline := min m Config.lastMinute } s)
      (answered_answerDone _ _)
  | minuteTick | dayRollover | clockLastMomentStop | deadlineTick => exact onlyBusy_next _
  | startPeriodClose => exact onlyBusy_serve (by unfold startPeriodCloseBlock; split <;> simp)
  | startRollout lot => exact onlyBusy_serve (by unfold startRolloutBlock; (repeat' split) <;> simp)
  | startOverdue => exact onlyBusy_serve (by unfold startOverdueBlock; split <;> simp)
  | cancelSweep => exact onlyBusy_serve (by unfold cancelSweepBlock; (repeat' split) <;> simp)
  | sweepStatus => exact onlyBusy_serve (block := sweepStatusBlock) (answered_answerDone _ _)
  | periodCloseStep =>
    refine onlyBusy_onSweep fun w o _ ho => ?_
    split at ho <;> cases ho
    exact onlyBusy_next _
  | rolloutStep => exact h.onlyBusy_execRolloutStep
  | overdueStep => exact h.lanesServed.onlyBusy_execOverdueStep
  | takeNotice => exact onlyBusy_serve h.answered_takeNoticeBlock
  | setAttentionMode m => exact onlyBusy_serve (by unfold setAttentionModeBlock; split <;> simp)
  | attnPulseStart =>
    show OnlyBusy (execAttnPulseStart s)
    unfold execAttnPulseStart
    split <;> simp
  | attnPulseEnd =>
    show OnlyBusy (execAttnPulseEnd s)
    unfold execAttnPulseEnd
    split <;> simp
  | status line =>
    exact onlyBusy_serve (block := fun s => answerDone s (.status (statusOf s))) (answered_answerDone _ _)
  | identify => exact onlyBusy_serve (block := fun s => answerDone s .identity) (answered_answerDone _ _)
  | powerOn => exact onlyBusy_next _
  | clearingEnd =>
    show OnlyBusy (execClearingEnd s)
    unfold execClearingEnd
    split <;> simp
  | warmReset =>
    show OnlyBusy (execWarmReset s)
    unfold execWarmReset
    (repeat' split) <;> simp
  | resetRelease => exact onlyBusy_next _

/-- Settles O60: a sound state serves every lane, lists and stamps every notice, and holds the lot that rolls. -/
theorem soundStatesOnlyStopOnImpossibleFrames : Obligations.SoundStatesOnlyStopOnImpossibleFrames := by
  intro s f hs hf
  cases hp : s.pending with
  | nil => rw [step, hp] at hf; cases hf
  | cons c rest =>
    rw [step_of_pending hp] at hf
    have hrecords : RecordsSound (s.withPending rest) :=
      SameRecords.sound (s := s) ⟨rfl, rfl, rfl, rfl, rfl, rfl⟩ hs.records
    exact exec_onlyBusy hrecords c f hf

end Sys2Proof.Machine
end

section
/-! The proofs of this family: the taking of requests and the frames of the ports (chapter 10). -/
namespace Sys2Proof.Machine

/-- Settles O3: every request command is one block behind the framer's admission. -/
theorem requestsNotTaken : Obligations.RequestsNotTaken := by
  intro c p r s hc
  obtain ⟨block, hblock⟩ := exec_request hc
  rw [hblock]
  refine ⟨fun h => serve_reset (by simpa), fun h ho => serve_busy (by simpa) (by simpa), fun h ho hs => ?malformed,
    fun h ho hs hy => ?notReady⟩
  case malformed => exact serve_malformed (by simpa) (by simpa) hs
  case notReady => exact serve_notReady (by simpa) (by simpa) hs (by simpa)

/-! ### The frames (R171 to R173) -/

theorem Framer.replyReady_iff (f : Framer) : f.replyReady = true ↔ ∃ reply, f = .replyHeld reply := by
  cases f <;> simp [Framer.replyReady]

theorem exec_requestFrameEnd_of_not_taking {p : Port} {s : State} (bytes : List Byte) (h : s.framer p ≠ .taking) :
    exec (.requestFrameEnd p bytes) s = .next s := by
  simp only [exec, execRequestFrameEnd]
  split
  · rfl
  · cases hf : s.framer p with
    | taking => exact absurd hf h
    | idle | answering | replyHeld => rfl

/-- Settles O4: the rows of Table 10-2 for a request frame, by the state of the framer. -/
theorem requestFramesBeginAndEnd : Obligations.RequestFramesBeginAndEnd := by
  refine ⟨fun s => ⟨Framer.replyReady_iff _, Framer.replyReady_iff _⟩, fun p s => ?empty, fun p s bytes =>
    ⟨fun h => ?reset, fun h => ⟨fun hf => ?_, fun reply hf => ?_, fun r hf => ?_, fun hf => ?_,
      exec_requestFrameEnd_of_not_taking bytes, fun hf hbytes => ?ending⟩⟩⟩
  case empty => simp [exec, execRequestFrameEnd]
  case reset => simp [exec, execRequestFrameBegin, execRequestFrameEnd, h]
  case ending =>
    refine ⟨fun hp => ?_, fun r hp hy => ?_, fun r hp hy => ?_⟩
    · simp [exec, execRequestFrameEnd, h, hf, hbytes, hp]
    · simp [exec, execRequestFrameEnd, h, hf, hbytes, hp, hy]
    · simp [exec, execRequestFrameEnd, h, hf, hbytes, hp, hy]
  all_goals simp [exec, execRequestFrameBegin, h, hf]

@[simp] theorem shiftOut_nil (n : Nat) : shiftOut [] n = List.replicate n 0xFF := by
  simp [shiftOut, Config.noReplyByte]

theorem shiftOut_of_le {reply : List Byte} {n : Nat} (h : reply.length ≤ n) :
    shiftOut reply n = reply ++ List.replicate (n - reply.length) 0xFF := by
  rw [shiftOut, List.take_of_length_le h]
  rfl

theorem shiftOut_of_lt {reply : List Byte} {n : Nat} (h : n < reply.length) : shiftOut reply n = reply.take n := by
  rw [shiftOut, Nat.sub_eq_zero_of_le (Nat.le_of_lt h), List.replicate_zero, List.append_nil]

/-- Settles O5: the row of Table 10-2 for a READ frame, by the state of the framer and how the frame began. -/
theorem readFramesShiftTheReplyOut : Obligations.ReadFramesShiftTheReplyOut := by
  refine fun p began n s => ⟨fun h => ?reset, fun hreset hbegan =>
    ⟨fun hf => ?_, fun hf => ?_, fun r hf => ?_, fun reply hf hb => ?_, fun reply hf hb => ?held⟩⟩
  case reset => rcases h with h | h <;> simp [exec, execReadFrame, h]
  case held =>
    subst hb
    refine ⟨fun hle => ?_, fun hlt => ?_⟩
    · simp [exec, execReadFrame, hreset, hf, hle, shiftOut_of_le hle]
    · simp [exec, execReadFrame, hreset, hf, shiftOut_of_lt hlt, Nat.not_le.mpr hlt]
  all_goals simp_all [exec, execReadFrame]

/-! ### The queues (R176, R179) -/

theorem execSubmit_eq (rep : StripReport) (s : State) :
    exec (.submit rep) s = serve .strip (.submit rep) (submitBlock rep) s := rfl

/-- Settles O9: the two queues at their capacities and below. -/
theorem submitAppendsAndCollectTakesTheHead : Obligations.SubmitAppendsAndCollectTakesTheHead := by
  refine ⟨fun s rep h => ⟨fun hfull => ?full, fun hroom => ?room⟩, fun s h => ⟨fun hv => ?none, fun v rest hv => ?some⟩⟩
  case full => exact serve_takes_ok h (by simp [submitBlock, Config.intakeCapacity, hfull, answer])
  case room =>
    have hnot : ¬Config.intakeCapacity ≤ s.queues.intake.length := Nat.not_le.mpr hroom
    refine serve_takes_ok h ?_
    rw [submitBlock, if_neg hnot]
    simp only [List.length_append, List.length_cons, List.length_nil, Nat.zero_add]
    rfl
  case none => exact serve_takes_ok h (by simp [collectBlock, hv, answer])
  case some => exact serve_takes_ok h (by simp [collectBlock, hv, answerDone])

/-! ### STATUS, the clock and the sweeps -/

/-- Settles O49: STATUS reads the state with the line driven. -/
theorem statusReportsTheState : Obligations.StatusReportsTheState := fun _ line h =>
  serve_takes_ok (block := fun s => answerDone s (.status (statusOf s))) (h.drive line) rfl

/-- Settles O39: the one write of each clock request. -/
theorem clockRequestsWriteTheClock : Obligations.ClockRequestsWriteTheClock := by
  refine ⟨fun s day minute base h => ⟨fun hrun => ?running, fun hstop => ?stopped⟩, fun s h => ?start, fun s h => ?stop,
    fun s minute h => ?deadline⟩
  case running => exact serve_takes_ok h (by simp [setClockBlock, hrun, answer])
  case stopped => exact serve_takes_ok h (by rw [setClockBlock, hstop]; rfl)
  case start => exact serve_takes_ok (block := fun s => writeClock { s.clock with running := true } s) h rfl
  case stop => exact serve_takes_ok (block := fun s => writeClock { s.clock with running := false } s) h rfl
  case deadline =>
    exact serve_takes_ok (block := fun s => writeClock { s.clock with deadline := min minute Config.lastMinute } s) h rfl

/-! ### The Attention List's requests and its line -/

/-- Settles O46: the head of the list, stamped, or the empty list. -/
theorem takeNoticeTakesTheHead : Obligations.TakeNoticeTakesTheHead := by
  refine fun s h => ⟨fun hempty => ?empty, fun n rest l stamp horder hl hstamp => ?head⟩
  case empty => exact serve_takes_ok h (by simp [takeNoticeBlock, hempty, answer])
  case head => exact serve_takes_ok h (by simp [takeNoticeBlock, horder, hl, hstamp, answerDone, noticeOf])

theorem execAttnPulseStart_eq (s : State) :
    exec .attnPulseStart s = if Awake s ∧ s.attention.mode = .pulse ∧ 0 < s.attention.pulsesOwed ∧
      s.attention.pulseInProgress = false then .next (s.withAttention { s.attention with pulseInProgress := true })
      else .next s := by
  simp only [exec, execAttnPulseStart, State.awake, Bool.and_eq_true, decide_eq_true_eq, Bool.not_eq_true', and_assoc]

/-- Settles O48: the mode written, the pulses of PULSE mode, and the level the line shows. -/
theorem attentionLineFollowsItsMode : Obligations.AttentionLineFollowsItsMode := by
  refine ⟨fun s mode h => ⟨fun hm => ?level, fun hm => ?pulse⟩, fun s => ⟨fun h => ?_, fun h => ?_, fun h => ?_,
    fun h => ?_, fun h => ?_, fun hy hm => ?_, fun hy hm => ?_⟩⟩
  case level => subst hm; exact serve_takes_ok (block := setAttentionModeBlock 0) h rfl
  case pulse => subst hm; exact serve_takes_ok (block := setAttentionModeBlock 1) h rfl
  · rw [execAttnPulseStart_eq, if_pos h]
  · rw [execAttnPulseStart_eq, if_neg h]
  · simp [exec, execAttnPulseEnd, h]
  · simp [exec, execAttnPulseEnd, h]
  · simp [attnLine, h]
  · simp [attnLine, hy, hm]
  · simp [attnLine, hy, hm]

end Sys2Proof.Machine
end

section
/-! The proofs of this family: the requests that name a lane, and the requests of the Policy Table, the Lot Table and
the Sweep Engine, their checks in order (chapters 1, 2, 3, 6 and 8). -/
namespace Sys2Proof.Machine

/-! ### Requests that name a lane (R11) -/

theorem onLane_of_lane {s : State} {name : LaneName} {n : Nat} {l : Lane} (act : Nat → Lane → State → Taken)
    (h : s.named name = .lane n l) : onLane name act s = act n l s := by
  rw [onLane, h]

/-- A request that names a lane and is taken does what it does to that lane (R11, R175). -/
theorem serve_onLane {p : Port} {r : Request} {s : State} {name : LaneName} {n : Nat} {l : Lane}
    {act : Nat → Lane → State → Taken} {t : State} {reply : Reply} (h : Takes p r s) (hn : s.named name = .lane n l)
    (hact : act n l s = .ok (t, reply)) : serve p r (onLane name act) s = .next (t.hold p reply) :=
  serve_takes_ok h ((onLane_of_lane act hn).trans hact)

/-- The eight commands that name a lane act on it (R11). -/
theorem exec_of_laneName {c : Instr} {name : LaneName} {r : Request} (hname : laneNameOf c = some name)
    (hr : c.request = some (.supervision, r)) :
    ∃ act, ∀ s, exec c s = serve .supervision r (onLane name act) (s.driven c) := by
  cases c with
  | editLane | lockLane | unlockLane | retireLane | lookupLane | holdLane | releaseLane | requalifyLane =>
    cases hname
    cases hr
    exact ⟨_, fun s => rfl⟩
  | _ => cases hname

/-- Settles O35: R11 answers before the request looks at a lane or at the line. -/
theorem unnamedLanesAreRefused : Obligations.UnnamedLanesAreRefused := by
  intro c name r s hname hr htakes
  obtain ⟨act, hexec⟩ := exec_of_laneName hname hr
  have hmalformed : s.named name = .malformed → exec c s = .next ((s.driven c).hold .supervision (.bare .malformed)) :=
    fun h => by rw [hexec]; exact serve_takes_ok (htakes.driven c) (by simp [onLane, h, answer])
  have hnoLane : s.named name = .noLane → exec c s = .next ((s.driven c).hold .supervision (.bare .noLane)) :=
    fun h => by rw [hexec]; exact serve_takes_ok (htakes.driven c) (by simp [onLane, h, answer])
  refine ⟨fun store slot hn => ⟨fun hbad => hmalformed ?_, fun h0 h3 hl => hnoLane ?_⟩,
    fun n hn => ⟨fun hbad => hmalformed ?_, fun hlt hl => hnoLane ?_⟩⟩ <;> subst hn
  · simp [State.named, hbad]
  · simp [State.named, h0, Nat.not_lt.mpr h3, hl]
  · simp [State.named, Config.poolPlaces, hbad]
  · simp [State.named, Config.poolPlaces, Nat.not_le.mpr hlt, hl]

theorem lockGate_drive (s : State) (line : Level) (l : Lane) :
    (s.drive line).lockGate l = true ↔ l.locked = true ∧ line = .inactive := by
  rw [State.lockGate, Bool.and_eq_true, decide_eq_true_iff]
  rfl

/-- Settles O30: the line's level decides. -/
theorem lockAndUnlockNeedTheSupervisor : Obligations.LockAndUnlockNeedTheSupervisor := fun _ _ _ _ hn =>
  ⟨fun h => ⟨serve_onLane (h.drive _) hn rfl, serve_onLane (h.drive _) hn rfl⟩,
    fun h => ⟨serve_onLane (h.drive _) hn rfl, serve_onLane (h.drive _) hn rfl⟩⟩

/-- Settles O34: HELD or not decides what RELEASE and REQUALIFY do. -/
theorem holdReleaseAndRequalify : Obligations.HoldReleaseAndRequalify := by
  refine fun s name n l hn => ⟨fun h => serve_onLane h hn rfl, fun h => ⟨fun hs => ?_, fun hs => ?_⟩,
    fun h => ⟨fun hs => ?_, fun hs => ?_⟩⟩
  · exact serve_onLane h hn (by simp [hs, answer])
  · exact serve_onLane h hn (by simp [hs, moveTo, answerDone, Lane.resettle])
  · exact serve_onLane h hn (by simp [hs, answer])
  · exact serve_onLane h hn (by simp [hs, moveTo, answerDone, Lane.resettle])

/-- An edited offset, clamped (R15). -/
theorem editLaneOf_offsets (e : LaneEdit) (l : Lane) (p : Point) :
    (editLaneOf e l).offsets.pick p = match e.offsets with
      | none => l.offsets.pick p
      | some o => max (-500) (min 500 (o.pick p)) := by
  have hsame : (editLaneOf e l).offsets = (editedLane e l).offsets := by
    unfold editLaneOf; dsimp only; split <;> rfl
  rw [hsame]
  cases he : e.offsets <;> simp [editedLane, he, clamp]

theorem editLaneOf_of_same {e : LaneEdit} {l : Lane} (h : (editLaneOf e l).offsets = l.offsets ∨ l.state = .held) :
    editLaneOf e l = editedLane e l := by
  unfold editLaneOf at h ⊢
  dsimp only at h ⊢
  split
  · rfl
  · rename_i hc
    rw [if_neg hc] at h
    exact absurd h hc

theorem editLaneOf_of_changed {e : LaneEdit} {l : Lane} (h : (editLaneOf e l).offsets ≠ l.offsets)
    (hs : l.state ≠ .held) : editLaneOf e l = (editedLane e l).resettle := by
  unfold editLaneOf at h ⊢
  dsimp only at h ⊢
  split
  · rename_i hc
    rw [if_pos hc] at h
    exact absurd hc (not_or.mpr ⟨h, hs⟩)
  · rfl

/-- Settles O29: the lock gate, then the edit with its resettling. -/
theorem editLaneWritesItsParts : Obligations.EditLaneWritesItsParts := by
  intro s name e line n l h hn
  refine ⟨fun hgate => serve_onLane (h.drive line) hn ?gate, fun hgate => ⟨editLaneOf e l,
    serve_onLane (h.drive line) hn ?edit, editLaneOf_offsets e l, fun hsame => ?same, fun hchange hs => ?changed⟩⟩
  case gate => rw [if_pos ((lockGate_drive s line l).mpr hgate)]; rfl
  case edit => rw [if_neg (fun hg => hgate ((lockGate_drive s line l).mp hg))]; rfl
  case same =>
    rw [editLaneOf_of_same hsame]
    rfl
  case changed =>
    rw [editLaneOf_of_changed hchange hs]
    rfl

/-! ### NEXT LANE (R23) -/

/-- The lane NEXT LANE finds stands at the lowest occupied place above the start. -/
theorem nextLane_spec (start : Option Nat) {s : State} (hs : PoolSound s) :
    match nextLane start s.store.pool with
    | none => ∀ m l, (∀ k, start = some k → k < m) → s.lane m ≠ some l
    | some (n, l) => (∀ k, start = some k → k < n) ∧ s.lane n = some l ∧
        ∀ m x, (∀ k, start = some k → k < m) → s.lane m = some x → n ≤ m := by
  cases start with
  | some k =>
    have h := Table.above_spec k s.store.pool hs.canonical
    simp only [nextLane, Option.some.injEq, forall_eq']
    cases hfound : Table.above k s.store.pool with
    | none =>
      rw [hfound] at h
      exact fun m l hm hl => absurd (h _ (Table.mem_of_find hl)) (Nat.not_le.mpr hm)
    | some e =>
      obtain ⟨n, l⟩ := e
      rw [hfound] at h
      obtain ⟨hlt, hl, hleast⟩ := h
      exact ⟨hlt, hl, fun m x hm hx => hleast _ (Table.mem_of_find hx) hm⟩
  | none =>
    simp only [nextLane, reduceCtorEq, false_implies, implies_true, forall_const, true_and]
    cases hpool : s.store.pool with
    | nil =>
      intro m l hl
      rw [State.lane, hpool] at hl
      cases hl
    | cons e rest =>
      obtain ⟨n, l⟩ := e
      have hwf := hs.canonical
      rw [hpool] at hwf
      refine ⟨by rw [State.lane, hpool]; simp [Table.find], fun m x hx => ?_⟩
      have hmem := Table.mem_of_find hx
      rw [hpool] at hmem
      rcases List.mem_cons.mp hmem with heq | hrest
      · cases heq
        exact Nat.le_refl _
      · exact Nat.le_of_lt ((List.pairwise_cons.mp hwf).1 _ hrest)

/-- Settles O33: LOOKUP LANE reads the named lane, NEXT LANE the lowest place above its start. -/
theorem lookupAndNextFindLanes : Obligations.LookupAndNextFindLanes := by
  refine ⟨fun s name n l h hn => serve_onLane h hn rfl, fun s start h hs => ⟨?malformed, fun hstart => ?found⟩⟩
  case malformed =>
    rintro ⟨k, rfl, hk⟩
    exact serve_takes_ok h (by simp [nextLaneBlock, Config.poolPlaces, hk, answer])
  case found =>
    have hvalid : (start.any fun n => decide (Config.poolPlaces ≤ n)) = false := by
      cases start with
      | none => rfl
      | some k => exact decide_eq_false (Nat.not_le.mpr (hstart k rfl))
    have hspec := nextLane_spec start hs
    refine ⟨fun hnone => serve_takes_ok h ?_, fun n l hn hl hleast => serve_takes_ok h ?_⟩ <;>
      simp only [nextLaneBlock, hvalid, Bool.false_eq_true, if_false]
    · cases hfound : nextLane start s.store.pool with
      | none => rfl
      | some e =>
        obtain ⟨m, x⟩ := e
        rw [hfound] at hspec
        obtain ⟨hm, hx, -⟩ := hspec
        rw [hnone m hm] at hx
        cases hx
    · cases hfound : nextLane start s.store.pool with
      | none =>
        rw [hfound] at hspec
        exact absurd hl (hspec n l hn)
      | some e =>
        obtain ⟨m, x⟩ := e
        rw [hfound] at hspec
        obtain ⟨hm, hx, hmin⟩ := hspec
        have hmn : m = n := by
          refine Nat.le_antisymm (hmin n l hn hl) (Nat.le_of_not_lt fun hlt => ?_)
          rw [hleast m hm hlt] at hx
          cases hx
        subst hmn
        cases hl.symm.trans hx
        rfl

/-! ### The Policy Table (R36 to R38) -/

theorem processType_val (t : ProcessType) : processType t = some t := by
  simp [processType]

theorem processType_of_lt {n : Nat} (h : 7 < n) : processType n = none := by
  simp [processType, Nat.not_lt.mpr h]

/-- Settles O36: a type, then the line, then the record. -/
theorem policyRequestsReadAndWrite : Obligations.PolicyRequestsReadAndWrite := by
  refine fun s n b line => ⟨fun h => ⟨fun hn => ?_, ?set⟩, fun h => ⟨fun hn => ?_, ?undefine⟩,
    fun h => ⟨fun hn => ?_, ?read⟩⟩
  case set =>
    rintro t rfl
    refine ⟨fun hline => ?_, fun hline => ?_⟩ <;> subst hline
    · exact serve_takes_ok (h.drive _) (by simp [setPolicyBlock, processType_val, answer])
    · exact serve_takes_ok (h.drive _) (by simp [setPolicyBlock, processType_val, answerDone])
  case undefine =>
    rintro t rfl
    refine ⟨fun hline => ?_, fun hline hcount => ?_, fun hline hcount => ?_⟩ <;> subst hline
    · exact serve_takes_ok (h.drive _) (by simp [setPolicyUndefineBlock, processType_val, answer])
    · exact serve_takes_ok (h.drive _)
        (by simp [setPolicyUndefineBlock, processType_val, answer, Nat.pos_of_ne_zero hcount])
    · exact serve_takes_ok (h.drive _) (by simp [setPolicyUndefineBlock, processType_val, answerDone, hcount])
  case read =>
    rintro t rfl
    refine ⟨fun hp => ?_, fun p hp => ?_⟩
    · exact serve_takes_ok h (by simp [readPolicyBlock, processType_val, hp, answer])
    · exact serve_takes_ok h (by simp [readPolicyBlock, processType_val, hp, answerDone])
  · exact serve_takes_ok (h.drive _) (by simp [setPolicyBlock, processType_of_lt hn, answer])
  · exact serve_takes_ok (h.drive _) (by simp [setPolicyUndefineBlock, processType_of_lt hn, answer])
  · exact serve_takes_ok h (by simp [readPolicyBlock, processType_of_lt hn, answer])

/-! ### The Lot Table (R50 to R52) -/

theorem lot_not_rolling_or_current {st : LotState} (h : st = .announced ∨ st = .superseded) :
    ¬(st = .rolling ∨ st = .current) := by
  rcases h with rfl | rfl <;> decide

/-- Settles O37: the checks of each request in their order. -/
theorem lotsAreAnnouncedReadAndDeleted : Obligations.LotsAreAnnouncedReadAndDeleted := by
  refine ⟨fun s lot n refs h => ⟨fun hbad => ?_, ?announce⟩, fun s lot h => ⟨fun h0 => ?_, fun h0 hnone => ?_, ?delete⟩,
    fun s lot h => ⟨fun h0 => ?_, fun h0 hnone => ?_, fun e h0 he => ?_⟩, fun s start h hwf => ?following⟩
  case announce =>
    rintro t rfl h0
    refine ⟨fun hex => ?_, fun hnew hp => ?_, fun hnew hp hfull => ?_, fun hnew hp hroom => ?_⟩
    · have hsome : (Table.find lot s.lots.entries).isSome = true := Option.isSome_iff_ne_none.mpr hex
      exact serve_takes_ok h (by simp [announceLotBlock, processType_val, h0, hsome, answer])
    · exact serve_takes_ok h (by simp [announceLotBlock, processType_val, h0, hnew, hp, answer])
    · exact serve_takes_ok h
        (by simp [announceLotBlock, processType_val, h0, hnew, hp, hfull, Config.lotCapacity, answer])
    · refine serve_takes_ok h ?_
      simp only [announceLotBlock, processType_val, h0, hnew, hp, Nat.not_le.mpr hroom, Config.lotCapacity, answerDone,
        Option.isSome_none, Option.isNone_iff_eq_none, if_false, Bool.false_eq_true]
      rfl
  case delete =>
    refine fun e h0 he => ⟨fun hst => ?_, fun hst hu => ?_, fun hst hu => ?_⟩
    · exact serve_takes_ok h (by simp [deleteLotBlock, h0, he, hst, answer])
    · exact serve_takes_ok h
        (by simp [deleteLotBlock, h0, he, lot_not_rolling_or_current hst, Nat.pos_of_ne_zero hu, answer])
    · exact serve_takes_ok h (by simp [deleteLotBlock, h0, he, lot_not_rolling_or_current hst, hu, answerDone])
  case following =>
    have hspec := Table.above_spec start s.lots.entries hwf
    refine ⟨fun hnone => serve_takes_ok h ?_, fun n e hn he hleast => serve_takes_ok h ?_⟩ <;>
      simp only [readLotFollowingBlock]
    · cases hfound : Table.above start s.lots.entries with
      | none => rfl
      | some x =>
        rw [hfound] at hspec
        obtain ⟨hlt, hx, -⟩ := hspec
        rw [hnone _ hlt] at hx
        cases hx
    · cases hfound : Table.above start s.lots.entries with
      | none =>
        rw [hfound] at hspec
        exact absurd (hspec _ (Table.mem_of_find he)) (Nat.not_le.mpr hn)
      | some x =>
        obtain ⟨m, y⟩ := x
        rw [hfound] at hspec
        obtain ⟨hlt, hy, hmin⟩ := hspec
        have hmn : m = n := by
          refine Nat.le_antisymm (hmin _ (Table.mem_of_find he) hn) (Nat.le_of_not_lt fun hmn => ?_)
          rw [hleast m hlt hmn] at hy
          cases hy
        subst hmn
        cases he.symm.trans hy
        rfl
  · refine serve_takes_ok h ?_
    rcases hbad with h0 | hn
    · cases ht : processType n <;> simp [announceLotBlock, ht, h0, answer]
    · simp [announceLotBlock, processType_of_lt hn, answer]
  · exact serve_takes_ok h (by simp [deleteLotBlock, h0, answer])
  · exact serve_takes_ok h (by simp [deleteLotBlock, h0, hnone, answer])
  · exact serve_takes_ok h (by simp [readLotBlock, h0, answer])
  · exact serve_takes_ok h (by simp [readLotBlock, h0, hnone, answer])
  · exact serve_takes_ok h (by simp [readLotBlock, h0, he, answerDone])

/-! ### The Sweep Engine's requests (chapter 8) -/

theorem Engine.isRunning_of_ne_idle {e : Engine} (h : e ≠ .idle) : e.isRunning = true := by
  cases e with
  | idle => exact absurd rfl h
  | running w => rfl

/-- Settles O41: the checks of each request in their order, and the cancelled rollout. -/
theorem sweepRequestsStartCancelAndReport : Obligations.SweepRequestsStartCancelAndReport := by
  refine fun s => ⟨fun h => ⟨fun hbusy => ?_, fun hidle => ?_⟩, fun lot h => ⟨fun h0 => ?_, fun h0 hbusy => ?_,
    fun h0 hidle => ⟨fun hnone => ?_, fun e he => ⟨fun hst => ?_, fun hst => ?_⟩⟩⟩,
    fun h => ⟨fun hbusy => ?_, fun hidle => ?_⟩,
    fun h => ⟨fun hidle => ?_, fun w hw => ⟨fun hk => ?_, fun lot hk => ?cancel⟩⟩, fun h => ?status⟩
  case cancel =>
    refine serve_takes_ok h ?_
    simp only [cancelSweepBlock, hw, hk, answerDone, State.endSweep, Ending.byEngine, endLots, Bool.true_and,
      Bool.and_not_self, decide_eq_true_eq]
    rfl
  case status => exact serve_takes_ok (block := sweepStatusBlock) h rfl
  · exact serve_takes_ok h (by simp [startPeriodCloseBlock, Engine.isRunning_of_ne_idle hbusy, answer])
  · refine serve_takes_ok h ?_
    rw [startPeriodCloseBlock, hidle]
    rfl
  · exact serve_takes_ok h (by simp [startRolloutBlock, h0, answer])
  · exact serve_takes_ok h (by simp [startRolloutBlock, h0, Engine.isRunning_of_ne_idle hbusy, answer])
  · exact serve_takes_ok h (by simp [startRolloutBlock, h0, hidle, Engine.isRunning, hnone, answer])
  · exact serve_takes_ok h (by simp [startRolloutBlock, h0, hidle, Engine.isRunning, he, hst, answer])
  · refine serve_takes_ok h ?_
    simp only [startRolloutBlock, if_neg h0, hidle, Engine.isRunning, Bool.false_eq_true, if_false, he, hst, ne_eq,
      not_true_eq_false]
    rfl
  · exact serve_takes_ok h (by simp [startOverdueBlock, Engine.isRunning_of_ne_idle hbusy, answer])
  · refine serve_takes_ok h ?_
    rw [startOverdueBlock, hidle]
    rfl
  · exact serve_takes_ok h (by simp [cancelSweepBlock, hidle, answer])
  · exact serve_takes_ok h (by rcases hk with hk | hk <;> simp [cancelSweepBlock, hw, hk, answer])

end Sys2Proof.Machine
end

section
/-! The proofs of this family: the part's own events: the ticks of the clock, the steps and the end of a sweep, the
raising of a cause, power-on clearing and the warm reset (chapters 7, 8, 9 and 10). -/
namespace Sys2Proof.Machine

theorem awake_iff (s : State) : s.awake = true ↔ Awake s := by
  simp [State.awake]

/-! ### The minute tick (R130 to R133) -/

theorem tick_of_asleep {s : State} (h : ¬Awake s ∨ s.clock.running = false) : s.tick = s := by
  refine if_pos ?_
  rw [← awake_iff] at h
  simpa using h

theorem tick_of_last {s : State} (ha : Awake s) (hr : s.clock.running = true)
    (hlast : s.clock.day = 65535 ∧ s.clock.minute = 1439) :
    s.tick = s.withClock { s.clock with running := false } := by
  simp [State.tick, (awake_iff s).mpr ha, hr, DayClock.atLastMoment, Config.lastDay, Config.lastMinute, hlast]

theorem tick_of_running {s : State} (ha : Awake s) (hr : s.clock.running = true)
    (hlast : ¬(s.clock.day = 65535 ∧ s.clock.minute = 1439)) :
    s.tick = if s.clock.advanced.minute = s.clock.advanced.deadline then (s.withClock s.clock.advanced).askOverdue
      else s.withClock s.clock.advanced := by
  have hnot : s.clock.atLastMoment = false := by
    rw [DayClock.atLastMoment, ← Bool.not_eq_true, Bool.and_eq_true, decide_eq_true_iff, decide_eq_true_iff]
    exact hlast
  simp [State.tick, (awake_iff s).mpr ha, hr, hnot]

/-- Settles O38: the four tick rows are one event, decided by the clock it meets. -/
theorem minuteTicksMoveTheClock : Obligations.MinuteTicksMoveTheClock := by
  intro c s hc
  have htick : exec c s = .next s.tick := by
    simp only [List.mem_cons, List.not_mem_nil, or_false] at hc
    rcases hc with rfl | rfl | rfl | rfl <;> rfl
  rw [htick]
  refine ⟨fun h => by rw [tick_of_asleep h], fun ha hr => ⟨fun hlast => by rw [tick_of_last ha hr hlast],
    fun hlast => ⟨fun hne => ?_, fun heq => ⟨fun hidle => ?_, fun w hw => ?_⟩⟩⟩⟩ <;> rw [tick_of_running ha hr hlast]
  · rw [if_neg (show ¬s.clock.advanced.minute = s.clock.advanced.deadline from hne)]
    rfl
  · rw [if_pos (show s.clock.advanced.minute = s.clock.advanced.deadline from heq), State.askOverdue,
      State.withClock_sweeps, hidle]
    rfl
  · rw [if_pos (show s.clock.advanced.minute = s.clock.advanced.deadline from heq), State.askOverdue,
      State.withClock_sweeps, hw]
    rfl

/-! ### The steps of a sweep (R145) -/

theorem onSweep_of_running {s : State} {w : Sweep} (act : Sweep → Option (Host.Outcome State Fault Refusal))
    (ha : Awake s) (hw : s.sweeps.engine = .running w) : onSweep act s = (act w).getD (.next s) := by
  simp only [onSweep, hw, (awake_iff s).mpr ha, if_true]

/-- Not awake, or with no sweep of its kind running, a step changes nothing. -/
theorem onSweep_of_other {s : State} {act : Sweep → Option (Host.Outcome State Fault Refusal)}
    (h : ¬Awake s ∨ ∀ w, s.sweeps.engine = .running w → act w = none) : onSweep act s = .next s := by
  unfold onSweep
  split
  · rfl
  · rename_i w hw
    rcases h with h | h
    · rw [if_neg (fun ha => h ((awake_iff s).mp ha))]
    · rw [h w hw]
      split <;> rfl

theorem exec_periodCloseStep_of_running {s : State} {w : Sweep} (ha : Awake s) (hw : s.sweeps.engine = .running w)
    (hk : w.kind = .periodClose) :
    exec .periodCloseStep s = .next ((periodCloseAt w.cursor s).1.advance w (periodCloseAt w.cursor s).2) := by
  simp only [exec, execPeriodCloseStep, onSweep_of_running _ ha hw, hk, Option.getD_some]

theorem exec_rolloutStep_of_running {s : State} {w : Sweep} {lot : Nat} {e : Lot} (ha : Awake s)
    (hw : s.sweeps.engine = .running w) (hk : w.kind = .rollout lot) (he : Table.find lot s.lots.entries = some e) :
    exec .rolloutStep s =
      .next ((rolloutAt lot e.type w.cursor s).1.advance w (rolloutAt lot e.type w.cursor s).2) := by
  simp only [exec, execRolloutStep, onSweep_of_running _ ha hw, hk, he, Option.getD_some]

theorem exec_overdueStep_of_running {s t : State} {w : Sweep} {worked : Bool} (ha : Awake s)
    (hw : s.sweeps.engine = .running w) (hk : w.kind = .overdue) (hat : overdueAt w.cursor s = .ok (t, worked)) :
    exec .overdueStep s = .next (t.advance w worked) := by
  simp only [exec, execOverdueStep, onSweep_of_running _ ha hw, hk, hat, Option.getD_some]

/-- Settles O43: what the step does at its place, by what stands there. -/
theorem periodCloseStepsCloseLanes : Obligations.PeriodCloseStepsCloseLanes := by
  refine fun s => ⟨fun h => onSweep_of_other (h.imp_right fun hk w hw => ?other), fun w ha hw hk => ?_⟩
  case other =>
    cases hkind : w.kind with
    | periodClose => exact absurd hkind (hk w hw)
    | rollout lot => rfl
    | overdue => rfl
  rw [exec_periodCloseStep_of_running ha hw hk]
  refine ⟨fun hl => by simp [periodCloseAt, hl], fun l hl => ⟨fun htag => ?_, fun htag => ?_⟩⟩
  · simp [periodCloseAt, hl, htag]
  · simp [periodCloseAt, hl, htag, closeLane]

/-- Settles O45: what the step does at its place, by the lane, its policy and its missed strips. -/
theorem overdueStepsMarkLanes : Obligations.OverdueStepsMarkLanes := by
  refine fun s => ⟨fun h => onSweep_of_other (h.imp_right fun hk w hw => ?other), fun w ha hw hk =>
    ⟨fun hl => ?_, fun l hl => ⟨fun hs => ?_, fun pol hs hp => ⟨fun hless => ?_, fun hreach hmark => ?_⟩⟩⟩⟩
  case other =>
    cases hkind : w.kind with
    | periodClose => rfl
    | rollout lot => rfl
    | overdue => exact absurd hkind (hk w hw)
  all_goals refine exec_overdueStep_of_running ha hw hk ?_
  · simp [overdueAt, hl]
  · simp [overdueAt, hl, hs]
  · simp [overdueAt, hl, hs, hp, hless.symm]
  · simp [overdueAt, hl, hs, hp, hmark, Nat.not_lt.mpr hreach, saturate]

/-- The lots after a rollout step's assignment: the rolling lot gains a user, a lot it replaces loses one (R152). -/
theorem find_assignLot (lot : Nat) (replaced : Option Nat) (t : Table Lot) (m : Nat) :
    Table.find m (addUser lot (dropUser? replaced t)) = (Table.find m t).map fun x => { x with
      users := x.users - (if replaced = some m then 1 else 0) + (if m = lot then 1 else 0) } := by
  rw [addUser_eq_recount, dropUser?_eq_recount, recount_recount, find_recount]

/-- Settles O44: what the step does at its place, by the lane's type and lots. -/
theorem rolloutStepsAssignTheLot : Obligations.RolloutStepsAssignTheLot := by
  refine fun s => ⟨fun h => onSweep_of_other (h.imp_right fun hk w hw => ?other), fun w lot e ha hw hk he => ?_⟩
  case other =>
    cases hkind : w.kind with
    | periodClose => rfl
    | rollout lot => exact absurd hkind (hk w lot hw)
    | overdue => rfl
  rw [exec_rolloutStep_of_running ha hw hk he]
  refine ⟨fun hl => by simp [rolloutAt, hl], fun l hl => ⟨fun hskip => ?skip, fun htype hactive hpending => ?assign⟩⟩
  case skip => simp [rolloutAt, hl, hskip]
  case assign =>
    have hwork : rolloutAt lot e.type w.cursor s =
        ((s.withLots (addUser lot (dropUser? l.pendingLot s.lots.entries))).putLane w.cursor
          { l with pendingLot := some lot }, true) := by
      simp [rolloutAt, hl, htype, hactive, hpending]
    rw [hwork]
    refine ⟨_, rfl, ⟨rfl, rfl, rfl, rfl, rfl, rfl, rfl, rfl, rfl, rfl, fun m hm => ?_⟩, putLane_lane_self ..,
      rfl, rfl, rfl, fun m => find_assignLot lot l.pendingLot s.lots.entries m⟩
    exact putLane_lane_ne _ _ hm

/-! ### The end of a step and of a sweep (R145, R146, R153) -/

theorem steps_add_worked (n : Nat) (worked : Bool) :
    (if worked then n + 1 else n) = n + if worked then 1 else 0 := by
  cases worked <;> rfl

/-- The lots after a completed sweep: those of a completed rollout are promoted (R46, R153). -/
theorem find_endLots_completed (k : SweepKind) (t : Table Lot) (m : Nat) :
    Table.find m (endLots k .completed t) = (Table.find m t).map fun e =>
      match k with
      | .periodClose | .overdue => e
      | .rollout lot =>
        match Table.find lot t with
        | none => e
        | some rolling =>
          if m = lot then { e with state := .current }
          else if e.type = rolling.type ∧ e.state = .current then { e with state := .superseded }
          else e := by
  cases k with
  | periodClose => simp [endLots]
  | overdue => simp [endLots]
  | rollout lot =>
    rw [endLots, find_promoteLot]
    cases h : Table.find lot t <;> simp [h]

/-- Settles O42: a step within the pool moves the cursor; the step at place 1535 ends the sweep. -/
theorem sweepsAdvanceAndComplete : Obligations.SweepsAdvanceAndComplete := by
  refine fun s w worked => ⟨fun hlt => ?within, fun hlast => ?last⟩
  case within => rw [advance_within s w worked (by omega), steps_add_worked]
  case last =>
    rw [advance_last s w worked (by omega), steps_add_worked]
    refine ⟨?sweeps, ?attention, rfl, fun m => ?lots, rfl⟩
    case sweeps => simp [State.endSweep, Ending.byEngine, hlast, Sweep.start]
    case attention => simp [State.endSweep, Ending.byEngine]
    case lots => exact find_endLots_completed w.kind s.lots.entries m

/-! ### One cause raised (R161) -/

theorem Table.put_of_find {α : Type} {n : Nat} {x : α} {t : Table α} (hw : Table.wf t) (h : Table.find n t = some x) :
    Table.put n x t = t := by
  induction t with
  | nil => cases h
  | cons e t ih =>
    obtain ⟨j, a⟩ := e
    obtain ⟨hj, ht⟩ := List.pairwise_cons.mp hw
    rw [Table.find] at h
    rw [Table.put]
    by_cases hjn : j = n
    · rw [if_pos hjn] at h
      cases h
      rw [if_neg (by omega), if_pos hjn.symm, hjn]
    · rw [if_neg hjn] at h
      have := hj _ (Table.mem_of_find h)
      rw [if_neg (by omega), if_neg (Ne.symm hjn), ih ht h]

theorem putLane_of_lane {s : State} {n : Nat} {l : Lane} (hs : PoolSound s) (h : s.lane n = some l) :
    s.putLane n l = s := by
  rw [State.putLane, Table.put_of_find hs.canonical h]

theorem Causes.add_of_has {m : Causes} {c : Cause} (h : m.has c = true) : m.add c = m := by
  cases m
  cases c <;> simp_all [Causes.add, Causes.has]

theorem Causes.has_add_iff (m : Causes) (c x : Cause) : (m.add c).has x = true ↔ m.has x = true ∨ x = c := by
  by_cases hx : x = c
  · simp [hx]
  · simp [Causes.has_add_ne m hx, hx]

theorem raise_of_passes {s : State} {mask : Causes} {n : Nat} {c : Cause} {l : Lane} (hl : s.lane n = some l)
    (h : passes mask c = true) : s.raise mask n c = if l.causes = .empty then
        (s.putLane n { l with causes := l.causes.add c, joined := some ⟨s.clock.day, s.clock.minute⟩ }).withAttention
          (s.attention.join n)
      else s.putLane n { l with causes := l.causes.add c } := by
  have hmask : (mask.has c || decide (c = .action)) = true := h
  simp only [State.raise, hmask, if_true, hl]

/-- Settles O47: the mask drops, an empty set joins, any other merges. -/
theorem raisedCausesJoinOrMerge : Obligations.RaisedCausesJoinOrMerge := by
  intro s mask n c l hs hl
  refine ⟨fun h => ?dropped, fun h hempty => ?joins, fun h hne hnew => ?merges, fun h hold => ?again⟩
  case dropped =>
    have hmask : (mask.has c || decide (c = .action)) = false := h
    simp [State.raise, hmask]
  case joins =>
    rw [raise_of_passes hl h, if_pos hempty]
    refine ⟨_, _, rfl, fun x => ?_, ?_⟩
    · rw [Causes.has_add_iff, hempty]
      simp
    · rw [AttentionList.join, AttentionList.owe]
      cases hm : s.attention.mode <;> simp
  case merges =>
    rw [raise_of_passes hl h, if_neg hne]
    exact ⟨_, rfl, Causes.has_add_iff l.causes c⟩
  case again =>
    have hne : l.causes ≠ .empty := fun he => by simp [he] at hold
    rw [raise_of_passes hl h, if_neg hne, Causes.add_of_has hold]
    exact putLane_of_lane hs hl

/-! ### Power-on clearing and the warm reset (R182 to R185) -/

/-- Settles O51: both events write the values of power-on. -/
theorem clearingLeavesThePartEmpty : Obligations.ClearingLeavesThePartEmpty := by
  refine ⟨fun s => ⟨_, rfl, rfl, rfl, fun p => by cases p <;> rfl, rfl, rfl, get_reset_policies, rfl, rfl, rfl, rfl, rfl⟩,
    fun s h => ?ready, fun s h => ⟨_, if_neg (ne_true_of_eq_false h), rfl, rfl, fun p => by cases p <;> rfl, rfl, rfl, get_reset_policies,
      rfl, rfl, rfl, rfl, rfl⟩⟩
  exact if_pos h

theorem breakSweep_of_idle {s : State} (h : s.sweeps.engine = .idle) : s.breakSweep = s := by
  simp [State.breakSweep, h]

theorem breakSweep_of_periodClose {s : State} {w : Sweep} (hw : s.sweeps.engine = .running w)
    (hk : w.kind = .periodClose) : s.breakSweep = s := by
  simp [State.breakSweep, hw, hk]

theorem breakSweep_of_rollout {s : State} {w : Sweep} {lot : Nat} (hw : s.sweeps.engine = .running w)
    (hk : w.kind = .rollout lot) : s.breakSweep = s.endSweep .broken w := by
  simp [State.breakSweep, hw, hk]

theorem breakSweep_of_overdue {s : State} {w : Sweep} (hw : s.sweeps.engine = .running w)
    (hk : w.kind = .overdue) : s.breakSweep = s.endSweep .abandoned w := by
  simp [State.breakSweep, hw, hk]

/-- What a broken sweep leaves outside the engine and the lots (R159). -/
structure SweepBroken (s t : State) : Prop where
  pending : t.pending = s.pending
  policies : t.policies = s.policies
  clock : t.clock = s.clock
  attention : t.attention = s.attention
  periodNumber : t.sweeps.periodNumber = s.sweeps.periodNumber

theorem breakSweep_broken (s : State) : SweepBroken s s.breakSweep := by
  unfold State.breakSweep
  (repeat' split) <;> exact ⟨rfl, rfl, rfl, rfl, rfl⟩

/-- Settles O52: the reset breaks the sweep by its kind and drops the queues, the framers and the flags. -/
theorem warmResetDropsAndKeeps : Obligations.WarmResetDropsAndKeeps := by
  refine ⟨fun s h => by simp [exec, execWarmReset, h], fun s h => ?asserted, fun s => rfl⟩
  have hb := breakSweep_broken s
  refine ⟨_, if_neg (ne_true_of_eq_false h), hb.pending, rfl,
    fun p => by cases p <;> rfl, rfl, State.breakSweep_store s, hb.policies, hb.clock, ?_, rfl, rfl, rfl, hb.periodNumber,
    fun hidle => ?_, fun w hw => ⟨?_, fun hk => ?_, fun lot hk => ?_, fun hk => ?_⟩⟩
  · simp only [hb.attention]
  · simp [breakSweep_of_idle hidle, hidle, Engine.isRunning]
  · simp [hw, Engine.isRunning]
  · simp [breakSweep_of_periodClose hw hk, hw]
  · simp [breakSweep_of_rollout hw hk, State.endSweep, Ending.byEngine, hk, endLots]
  · simp [breakSweep_of_overdue hw hk, State.endSweep, Ending.byEngine, hk, endLots]

end Sys2Proof.Machine
end

section
/-! The proofs of this family: what one evaluation leaves (chapter 4): the verdict, the lane, the lots, the queues and
the Attention List, said once of every judgement, and then read off for each kind of judgement. -/
namespace Sys2Proof.Machine

/-! ### What a committed judgement leaves -/

theorem OnlyLane.refl (n : Nat) (s : State) : OnlyLane n s s :=
  ⟨rfl, rfl, rfl, rfl, rfl, rfl, rfl, rfl, rfl, rfl, fun _ _ => rfl⟩

theorem OnlyLane.raiseAll {n : Nat} {s t : State} (h : OnlyLane n s t) (mask : Causes) (cs : List Cause) :
    OnlyLane n s (t.raiseAll mask n cs) := by
  obtain ⟨hpending, hlines, hports, -, hpolicies, -, hclock, hsweeps, hstatus, hdirectory, hoccupied, hsites⟩ :=
    raiseAll_frame t mask n cs
  exact ⟨hpending.trans h.pending, hlines.trans h.lines, hports.trans h.ports, hdirectory.trans h.directory,
    hoccupied.trans h.occupiedLanes, hsites.trans h.siteCount, hpolicies.trans h.policies, hclock.trans h.clock,
    hsweeps.trans h.sweeps, hstatus.trans h.status, fun m hm => (raiseAll_lane_ne t mask cs hm).trans (h.others m hm)⟩

/-- One evaluation by the judgement `j` of the report of `q`: what it leaves in the state, and the lane `l'` it leaves
at place `n` (R67, R75, R81, R162). -/
structure EvaluatedTo (s : State) (q : QueuedReport) (rest : List QueuedReport) (n : Nat) (l : Lane) (pol : Policy)
    (j : Judgement) (t : State) (l' : Lane) : Prop where
  exec : exec .evaluation s = .next t
  only : OnlyLane n s t
  lane : t.lane n = some l'
  queues : t.queues = ⟨rest, s.queues.verdicts ++ [verdictOf (some q.ticket) q.report (some n) j.body],
    s.queues.ticketCounter⟩
  lots : t.lots = { s.lots with entries := judgedLots j q.report.lot l s.lots.entries }
  causes : ∀ x, l'.causes.has x = (j.lane.causes.has x || (passes pol.noticeMask x && decide (x ∈ j.causes)))
  attention : t.attention = if j.lane.causes = .empty ∧ l'.causes ≠ .empty then s.attention.join n else s.attention
  joined : l'.joined = if j.lane.causes = .empty ∧ l'.causes ≠ .empty then some ⟨s.clock.day, s.clock.minute⟩
    else j.lane.joined
  fields : l' = { j.lane with causes := l'.causes, joined := l'.joined }

/-- An evaluation whose judgement is reached commits it and pushes its verdict (R67). -/
theorem exec_evaluation_of_judge {s : State} {q : QueuedReport} {rest : List QueuedReport} {n : Nat} {l : Lane}
    {pol : Policy} {j : Judgement} (h : Judges s q rest n l pol)
    (hj : judge s.lots.entries pol s.clock.day l q.report = .ok j) :
    exec .evaluation s = .next ((commitJudgement { s with queues := { s.queues with intake := rest } } n l pol.noticeMask
      q.report.lot j).pushVerdict (verdictOf (some q.ticket) q.report (some n) j.body)) := by
  rw [exec_evaluation_of_judges h, hj]

theorem Judges.evaluatedTo {s : State} {q : QueuedReport} {rest : List QueuedReport} {n : Nat} {l : Lane} {pol : Policy}
    {j : Judgement} (h : Judges s q rest n l pol) (hj : judge s.lots.entries pol s.clock.day l q.report = .ok j) :
    ∃ t l', EvaluatedTo s q rest n l pol j t l' := by
  have hexec := exec_evaluation_of_judge h hj
  rw [commitJudgement_eq] at hexec
  obtain ⟨l', hraised⟩ := raiseAll_raised
    (((({ s with queues := { s.queues with intake := rest } } : State).withLots
      (judgedLots j q.report.lot l s.lots.entries))).putLane n j.lane) pol.noticeMask n j.causes j.lane
    (putLane_lane_self ..)
  obtain ⟨-, -, -, hqueues, -, hlots, -⟩ := raiseAll_frame
    (((({ s with queues := { s.queues with intake := rest } } : State).withLots
      (judgedLots j q.report.lot l s.lots.entries))).putLane n j.lane) pol.noticeMask n j.causes
  have hput : OnlyLane n s ((({ s with queues := { s.queues with intake := rest } } : State).withLots
      (judgedLots j q.report.lot l s.lots.entries)).putLane n j.lane) :=
    ⟨rfl, rfl, rfl, rfl, rfl, rfl, rfl, rfl, rfl, rfl, fun m hm => putLane_lane_ne _ _ hm⟩
  have honly := hput.raiseAll pol.noticeMask j.causes
  refine ⟨_, l', hexec, ⟨honly.pending, honly.lines, honly.ports, honly.directory, honly.occupiedLanes,
    honly.siteCount, honly.policies, honly.clock, honly.sweeps, honly.status, honly.others⟩, hraised.lane, ?_, hlots,
    hraised.causes, hraised.attention, hraised.joined, hraised.rest⟩
  rw [State.pushVerdict, hqueues]
  rfl

/-! ### The kinds of judgement -/

theorem judge_of_dayRefusal {s : State} {l : Lane} {rep : Report} {reason : Reason} (pol : Policy)
    (h : dayRefusal s.clock.day l rep.day = some reason) :
    judge s.lots.entries pol s.clock.day l rep = .ok ⟨none, countRefusal l, [], .refused reason⟩ := by
  simp only [judge, h]

/-- The lot case that refuses a report, by the presence of its lot in the table (R58, R59). -/
theorem judge_of_unresolved {s : State} {l : Lane} {rep : Report} (pol : Policy) (hd : PassesDayChecks s l rep.day)
    (h : ∀ c, ¬ResolvesTo s l rep.lot c) :
    judge s.lots.entries pol s.clock.day l rep =
      .ok ⟨some (if (Table.find rep.lot s.lots.entries).isSome then .mismatch else .unknown), countRefusal l,
        [.lotRefused],
        .refused (if (Table.find rep.lot s.lots.entries).isSome then .lotMismatch else .lotUnknown)⟩ := by
  simp only [judge, (dayRefusal_eq_none_iff s l rep.day).mpr hd, resolveLot_refuses h]
  cases (Table.find rep.lot s.lots.entries).isSome <;> rfl

theorem judge_of_noData {s : State} {l : Lane} {pol : Policy} {rep : Report} {c : LotCase}
    (hd : PassesDayChecks s l rep.day) (hc : ResolvesTo s l rep.lot c) (hn : ∀ p v, ¬EvaluatedAt pol rep p v) :
    judge s.lots.entries pol s.clock.day l rep =
      .ok ⟨some c, countRefusal (crossLane c rep.lot l), c.causes, .refused .noData⟩ := by
  obtain ⟨hcase, hnone⟩ := hc.resolveLot
  simp only [judge, (dayRefusal_eq_none_iff s l rep.day).mpr hd, hcase, hnone, (noData_iff pol rep).mpr hn, if_true]

/-- A report resolved to a lot in the table is refused NO DATA or judged against that lot (R67, R74). -/
theorem judge_of_resolved {s : State} {q : QueuedReport} {rest : List QueuedReport} {n : Nat} {l : Lane} {pol : Policy}
    {c : LotCase} {e : Lot} (h : Judges s q rest n l pol) (hd : PassesDayChecks s l q.report.day)
    (hc : ResolvesTo s l q.report.lot c) (he : Table.find q.report.lot s.lots.entries = some e) :
    judge s.lots.entries pol s.clock.day l q.report =
        .ok ⟨some c, countRefusal (crossLane c q.report.lot l), c.causes, .refused .noData⟩ ∨
      Accepts s q rest n l pol c e ∧ judge s.lots.entries pol s.clock.day l q.report =
        .ok (judgeAccepted pol e.references c (crossLane c q.report.lot l) q.report) := by
  by_cases hdata : ∃ p v, EvaluatedAt pol q.report p v
  · have haccepts : Accepts s q rest n l pol c e := ⟨h, hd, hc, he, hdata⟩
    exact .inr ⟨haccepts, judge_of_accepts haccepts⟩
  · exact .inl (judge_of_noData hd hc fun p v hv => hdata ⟨p, v, hv⟩)

/-! ### The engine takes one report (R68, R178) -/

theorem exec_evaluation_of_nothing {s : State}
    (h : ¬Awake s ∨ s.queues.intake = [] ∨ 24 ≤ s.queues.verdicts.length) : exec .evaluation s = .next s := by
  simp only [exec, execEvaluation]
  split
  · rename_i hc
    obtain ⟨ha, hroom⟩ := (Bool.and_eq_true ..).mp hc
    rcases h with h | h | h
    · exact absurd ((awake_iff s).mp ha) h
    · rw [h]
    · exact absurd (of_decide_eq_true hroom) (Nat.not_lt.mpr h)
  · rfl

/-- A report that names no lane is refused NO LANE, and only the queues move (R68). -/
theorem exec_evaluation_of_noLane {s : State} {q : QueuedReport} {rest : List QueuedReport} (ha : Awake s)
    (hroom : s.queues.verdicts.length < 24) (hq : s.queues.intake = q :: rest)
    (hl : s.laneAt q.report.store q.report.slot = none) :
    exec .evaluation s = .next (({ s with queues := { s.queues with intake := rest } } : State).pushVerdict
      (verdictOf (some q.ticket) q.report none (.refused .noLane))) := by
  have hl' : State.laneAt { s with queues := { s.queues with intake := rest } } q.report.store q.report.slot = none := hl
  simp only [exec, execEvaluation, (awake_iff s).mpr ha, Config.verdictCapacity, hroom, hq, evaluateReport, hl',
    decide_true, Bool.and_self, if_true]

/-- Settles O10: nothing without a report, room or a waking part; else one verdict, by the lane the report names. -/
theorem evaluationTakesOneReport : Obligations.EvaluationTakesOneReport := by
  refine ⟨fun s h => exec_evaluation_of_nothing h, fun s q rest hserved ha hroom hq => ?_⟩
  cases hl : s.laneAt q.report.store q.report.slot with
  | none =>
    exact ⟨_, _, exec_evaluation_of_noLane ha hroom hq hl, rfl, rfl, rfl, rfl, rfl, rfl, (fun n hn => nomatch hn),
      fun _ => ⟨rfl, rfl⟩⟩
  | some x =>
    obtain ⟨n, l⟩ := x
    obtain ⟨pol, hpol⟩ := hserved.policy (lane_of_laneAt hl)
    obtain ⟨j, hj⟩ := hserved.judge_ok (lane_of_laneAt hl) pol q.report
    obtain ⟨t, l', ht⟩ := Judges.evaluatedTo ⟨ha, hroom, hq, hl, hpol⟩ hj
    refine ⟨t, _, ht.exec, ht.queues, rfl, rfl, rfl, rfl, rfl, fun m hm => ?_, fun hnone => by cases hnone⟩
    cases hm
    exact ht.only

/-! ### The refusals (R69 to R75) -/

/-- Settles O11: each reason is the day checks' refusal when the checks before it pass. -/
theorem reportsRefusedByTheirDay : Obligations.ReportsRefusedByTheirDay := by
  intro s q rest n l pol reason h hreason
  have hrefusal : dayRefusal s.clock.day l q.report.day = some reason := by
    unfold dayRefusal
    rcases hreason with ⟨rfl, hheld⟩ | ⟨hheld, ⟨rfl, hstale⟩ | ⟨rfl, hfresh, hahead⟩ | ⟨rfl, hday, hlast, hreruns⟩⟩
    · rw [if_pos hheld]
    · rw [if_neg hheld, if_pos hstale]
    · rw [if_neg hheld, if_neg (Nat.not_lt.mpr hfresh), if_pos hahead]
    · have hfresh : ¬q.report.day < l.lastDay.getD l.createdDay := by simp [hlast]
      rw [if_neg hheld, if_neg hfresh, if_neg (Nat.not_lt.mpr hday), if_pos ⟨hlast, hreruns⟩]
  rw [exec_evaluation_of_judge h (judge_of_dayRefusal pol hrefusal)]
  rfl

/-- Settles O12: resolution refuses by the table, the active case by its data. -/
theorem reportsRefusedForLotOrData : Obligations.ReportsRefusedForLotOrData := by
  refine fun s q rest n l pol h hd => ⟨fun hun => ?_, fun hactive hn => ?_⟩
  · rw [exec_evaluation_of_judge h (judge_of_unresolved pol hd hun)]
    split <;> rfl
  · rw [exec_evaluation_of_judge h (judge_of_noData hd (.active hactive) hn)]
    rfl

/-! ### Crossovers (R56, R57, R60) -/

/-- The lane and the lots of an accepted case other than the active one are crossed over. -/
theorem ResolvesTo.crossover {s : State} {l : Lane} {lot : Nat} {c : LotCase} (h : ResolvesTo s l lot c)
    (hc : c ≠ .active) : c.crossover ≠ .none ∧ c.causes = [.crossover] ∧ crossLane c lot l = { l with
      activeLot := lot, pendingLot := none, runCount := Points.all 0,
      counters := { l.counters with crossovers := min (l.counters.crossovers + 1) 255 } } := by
  cases h with
  | active _ => exact absurd rfl hc
  | pending _ _ => exact ⟨nofun, rfl, rfl⟩
  | auto _ _ _ _ _ _ _ => exact ⟨nofun, rfl, rfl⟩

/-- One cause raised leaves an empty cause set empty unless the mask passes it. -/
theorem ne_empty_iff_of_has {a b : Causes} {c : Cause} {pass : Bool} (ha : a = .empty)
    (h : ∀ x, b.has x = (a.has x || (pass && decide (x = c)))) : b ≠ .empty ↔ pass = true := by
  subst ha
  refine ⟨fun hb => ?_, fun hp hb => ?_⟩
  · by_contra hp
    exact hb (Causes.eq_empty fun x => by simp [h, hp])
  · have := h c
    simp [hb, hp] at this

/-- Settles O13: both kinds of judgement of a crossover leave the crossed lots; NO DATA leaves the rest of the lane. -/
theorem crossoversMoveTheLots : Obligations.CrossoversMoveTheLots := by
  intro s q rest n l pol c h hd hc hne hsome
  obtain ⟨e, he⟩ := Option.isSome_iff_exists.mp hsome
  obtain ⟨hcross, hcauses, hlane⟩ := hc.crossover hne
  have hjudge : ∃ j, judge s.lots.entries pol s.clock.day l q.report = .ok j ∧ j.lotCase = some c ∧
      Cause.crossover ∈ j.causes ∧ j.lane.activeLot = q.report.lot ∧ j.lane.pendingLot = none ∧
      j.lane.counters.crossovers = min (l.counters.crossovers + 1) 255 := by
    rcases judge_of_resolved h hd hc he with hj | ⟨-, hj⟩ <;> rw [hlane] at hj
    · exact ⟨_, hj, rfl, by simp [hcauses], rfl, rfl, rfl⟩
    · exact ⟨_, hj, rfl, by simp [judgeAccepted, hcauses], rfl, rfl, rfl⟩
  obtain ⟨j, hj, hcase, hmem, hactive, hpending, hcrossovers⟩ := hjudge
  obtain ⟨t, l', ht⟩ := h.evaluatedTo hj
  have hentries : t.lots.entries = crossUsers c q.report.lot l s.lots.entries := by
    rw [ht.lots]
    simp only [judgedLots, hcase]
  refine ⟨t, l', ht.exec, ht.only, ht.lane, ?_, ?_, ?_, fun hp => ?_, by rw [ht.lots], fun m => ?_, fun hn => ?noData⟩
  · rw [ht.fields, hactive]
  · rw [ht.fields, hpending]
  · rw [ht.fields, hcrossovers]
  · rw [ht.causes]
    simp [hp, hmem]
  · rw [hentries, crossUsers_eq_recount _ _ _ hcross, find_recount]
  case noData =>
    rw [judge_of_noData hd hc hn, hlane] at hj
    cases hj
    have hhas : ∀ x, l'.causes.has x =
        (l.causes.has x || (passes pol.noticeMask .crossover && decide (x = .crossover))) := by
      intro x
      rw [ht.causes x]
      by_cases hx : x = .crossover
      · subst hx; simp [countRefusal, hcauses]
      · simp [countRefusal, hcauses, hx]
    have hjoins : (l.causes = .empty ∧ l'.causes ≠ .empty) ↔
        (l.causes = .empty ∧ passes pol.noticeMask .crossover = true) :=
      and_congr_right fun hempty => ne_empty_iff_of_has hempty hhas
    refine ⟨ht.fields, hhas, ?_, ?_, ht.queues⟩
    · exact ht.joined.trans (if_congr hjoins rfl rfl)
    · exact ht.attention.trans (if_congr hjoins rfl rfl)

end Sys2Proof.Machine
end

section
/-! The proofs of this family: what an evaluated reading leaves in its lane (chapters 4 to 6), and the trial of PROVE,
which is the same judgement committed nowhere (R83 to R85). -/
namespace Sys2Proof.Machine

/-! ### The reading of an accepted report -/

/-- The results of an accepted report, each point judged against the lane after any crossover (R87). -/
def acceptedResults (pol : Policy) (l : Lane) (c : LotCase) (e : Lot) (rep : Report) : Points (Option PointResult) :=
  results pol (crossLane c rep.lot l) e.references rep

theorem Accepts.evaluatedTo {s : State} {q : QueuedReport} {rest : List QueuedReport} {n : Nat} {l : Lane}
    {pol : Policy} {c : LotCase} {e : Lot} (h : Accepts s q rest n l pol c e) :
    ∃ t l', EvaluatedTo s q rest n l pol
      (judgeAccepted pol e.references c (crossLane c q.report.lot l) q.report) t l' :=
  h.judges.evaluatedTo (judge_of_accepts h)

/-- The result of an evaluated point (R77, R78, R87). -/
theorem acceptedResults_of_evaluated {pol : Policy} {l : Lane} {c : LotCase} {e : Lot} {rep : Report} {p : Point}
    {v : Int} (h : EvaluatedAt pol rep p v) : (acceptedResults pol l c e rep).pick p = some
      { deviation := deviationOf e l p v
        gross := decide (deviationOf e l p v ≠ v - aim e.references l.offsets p)
        clipped := usesClipped (rep.clipped.get p.channel) p.quantity
        zone := zoneOf (pol.limits.pick p) (deviationOf e l p v)
        trend := newTrend pol.filterShift (l.trend.pick p) (deviationOf e l p v)
        runCount := newRunCount pol.deadband (runCountMet c l p) (deviationOf e l p v) } := by
  rw [acceptedResults, results_pick, (evaluable_eq_some_iff pol rep p v).mpr h]
  simp only [Option.map_some, judgePoint, crossLane_offsets, crossLane_trend, crossLane_runCount]
  rfl

theorem acceptedResults_of_not_evaluated {pol : Policy} (l : Lane) (c : LotCase) (e : Lot) {rep : Report} {p : Point}
    (h : ∀ v, ¬EvaluatedAt pol rep p v) : (acceptedResults pol l c e rep).pick p = none := by
  rw [acceptedResults, results_pick, (evaluable_eq_none_iff pol rep p).mpr h, Option.map_none]

/-- The points of the entries: those used whose plot value is there, in plot-point order (R81). -/
theorem acceptedResults_points (pol : Policy) (l : Lane) (c : LotCase) (e : Lot) (rep : Report) :
    (entriesOf (acceptedResults pol l c e rep)).map Prod.fst = Point.order.filter fun p => pol.used.pick p &&
      (plotValue (rep.densities.get p.channel) p.quantity).isSome := by
  rw [entriesOf_points]
  refine List.filter_congr fun p _ => ?_
  rw [acceptedResults, results_pick, Option.isSome_map, evaluable]
  cases pol.used.pick p <;> rfl

/-- What the points of a reading write in the lane (R79, R87, R101). -/
theorem EvaluatedTo.points {s t : State} {q : QueuedReport} {rest : List QueuedReport} {n : Nat} {l l' : Lane}
    {pol : Policy} {c : LotCase} {e : Lot}
    (h : EvaluatedTo s q rest n l pol (judgeAccepted pol e.references c (crossLane c q.report.lot l) q.report) t l') :
    l'.trend = (writePoints (acceptedResults pol l c e q.report) (crossLane c q.report.lot l)).trend ∧
    l'.runCount = (writePoints (acceptedResults pol l c e q.report) (crossLane c q.report.lot l)).runCount ∧
    l'.lastDeviation =
      (writePoints (acceptedResults pol l c e q.report) (crossLane c q.report.lot l)).lastDeviation := by
  rw [h.fields]
  exact ⟨rfl, rfl, rfl⟩

/-! ### The formulas (R76 to R78) -/

theorem plotValue_eq_some_iff (d : Strip (Option Nat)) (v : Int) :
    (plotValue d .fog = some v ↔ ∃ base : Nat, d.base = some base ∧ v = base) ∧
    (plotValue d .speed = some v ↔ ∃ base low : Nat, d.base = some base ∧ d.low = some low ∧ v = low - base) ∧
    (plotValue d .contrast = some v ↔ ∃ low high : Nat, d.low = some low ∧ d.high = some high ∧ v = high - low) ∧
    (plotValue d .dmax = some v ↔ ∃ top : Nat, d.max = some top ∧ v = top) := by
  refine ⟨?_, ?_, ?_, ?_⟩
  · cases hb : d.base <;> simp [plotValue, hb, eq_comm]
  · cases hb : d.base <;> cases hl : d.low <;> simp [plotValue, hb, hl, eq_comm]
  · cases hl : d.low <;> cases hh : d.high <;> simp [plotValue, hl, hh, eq_comm]
  · cases hm : d.max <;> simp [plotValue, hm, eq_comm]

theorem plotValue_eq_none_iff (d : Strip (Option Nat)) :
    (plotValue d .fog = none ↔ d.base = none) ∧
    (plotValue d .speed = none ↔ d.base = none ∨ d.low = none) ∧
    (plotValue d .contrast = none ↔ d.low = none ∨ d.high = none) ∧
    (plotValue d .dmax = none ↔ d.max = none) := by
  refine ⟨?_, ?_, ?_, ?_⟩
  · cases hb : d.base <;> simp [plotValue, hb]
  · cases hb : d.base <;> cases hl : d.low <;> simp [plotValue, hb, hl]
  · cases hl : d.low <;> cases hh : d.high <;> simp [plotValue, hl, hh]
  · cases hm : d.max <;> simp [plotValue, hm]

theorem deviationOf_eq_ite (e : Lot) (l : Lane) (p : Point) (v : Int) :
    deviationOf e l p v = if v - aim e.references l.offsets p < -1000 then -1000
      else if 1000 < v - aim e.references l.offsets p then 1000 else v - aim e.references l.offsets p := by
  show max (-1000) (min 1000 (v - aim e.references l.offsets p)) = _
  split
  · omega
  · split <;> omega

/-- Settles O14: the results of the evaluated points, written point by point, and the formulas they come from. -/
theorem readingsWriteTheirPoints : Obligations.ReadingsWriteTheirPoints := by
  refine ⟨fun s q rest n l pol c e h => ?points, plotValue_eq_some_iff, plotValue_eq_none_iff,
    fun refs offsets c => ⟨rfl, rfl, rfl, rfl⟩, deviationOf_eq_ite, fun k => ?clipped⟩
  case clipped => simp [usesClipped, or_comm]
  case points =>
    obtain ⟨t, l', ht⟩ := h.evaluatedTo
    obtain ⟨htrend, hrun, hdeviation⟩ := ht.points
    refine ⟨t, l', ht.exec, ht.lane, fun p => ⟨fun v hv => ?_, fun hv => ?_⟩⟩ <;>
      rw [hdeviation, htrend, hrun, writePoints_lastDeviation, writePoints_runCount]
    · have hp := acceptedResults_of_evaluated (l := l) (c := c) (e := e) hv
      rw [writePoints_trend_of_some hp, hp]
      exact ⟨rfl, rfl, rfl⟩
    · have hp := acceptedResults_of_not_evaluated l c e hv
      rw [writePoints_trend_of_none hp, hp]
      exact ⟨rfl, by simp, by simp⟩

/-- Settles O15: the reading writes its day over the crossed lane, and nothing else of the lane's identity. -/
theorem readingsWriteTheirDay : Obligations.ReadingsWriteTheirDay := by
  intro s q rest n l pol c e h
  obtain ⟨t, l', ht⟩ := h.evaluatedTo
  refine ⟨t, l', ht.exec, ht.lane, ?_⟩
  rw [ht.fields, ht.lots]
  cases h.case with
  | active _ =>
    simp [judgeAccepted, writeMove, writeDay, writePoints, crossLane, LotCase.crossover, saturate, judgedLots,
      crossUsers]
    exact ⟨if_congr decide_eq_true_iff rfl rfl, if_congr decide_eq_true_iff rfl rfl⟩
  | pending _ _ =>
    simp [judgeAccepted, writeMove, writeDay, writePoints, crossLane, LotCase.crossover, saturate]
  | auto _ _ _ _ _ _ _ =>
    simp [judgeAccepted, writeMove, writeDay, writePoints, crossLane, LotCase.crossover, saturate]

/-! ### The verdict, the transition and the causes (R81, R104, R111, R120, R162) -/

@[simp] theorem crossLane_counters_warns (c : LotCase) (lot : Nat) (l : Lane) :
    (crossLane c lot l).counters.warns = l.counters.warns := by
  unfold crossLane; split <;> rfl
@[simp] theorem crossLane_counters_driftEntries (c : LotCase) (lot : Nat) (l : Lane) :
    (crossLane c lot l).counters.driftEntries = l.counters.driftEntries := by
  unfold crossLane; split <;> rfl
@[simp] theorem crossLane_counters_actionEntries (c : LotCase) (lot : Nat) (l : Lane) :
    (crossLane c lot l).counters.actionEntries = l.counters.actionEntries := by
  unfold crossLane; split <;> rfl

/-- The judgement of an accepted report, in the lane's own terms. -/
theorem judgeAccepted_eq (pol : Policy) (l : Lane) (c : LotCase) (e : Lot) (rep : Report) :
    let entries := entriesOf (acceptedResults pol l c e rep)
    let m := moveLane pol l (outcomeOf pol entries)
    judgeAccepted pol e.references c (crossLane c rep.lot l) rep =
      { lotCase := some c
        lane := writeMove m (outcomeOf pol entries) (writeDay rep.day
          (writePoints (acceptedResults pol l c e rep) (crossLane c rep.lot l)))
        causes := c.causes ++ m.cause.toList
        body := .evaluated (outcomeOf pol entries) m.state c.crossover entries } := by
  simp only [judgeAccepted, moveLane_crossLane]
  rfl

/-- Settles O16: the entries give the outcome, the outcome the transition, and the transition the causes. -/
theorem readingsMoveTheLane : Obligations.ReadingsMoveTheLane := by
  intro s q rest n l pol c e h
  obtain ⟨t, l', ht⟩ := h.evaluatedTo
  obtain ⟨htrend, hrun, -⟩ := ht.points
  have hentries : ∀ p r, (p, r) ∈ entriesOf (acceptedResults pol l c e q.report) → ∃ v, EvaluatedAt pol q.report p v ∧
      r.deviation = deviationOf e l p v ∧
      (r.gross = true ↔ deviationOf e l p v ≠ v - aim e.references l.offsets p) ∧
      r.clipped = usesClipped (q.report.clipped.get p.channel) p.quantity ∧
      r.zone = zoneOf (pol.limits.pick p) r.deviation ∧ r.trend = (l'.trend.pick p).value ∧
      r.runCount = l'.runCount.pick p := by
    intro p r hmem
    have hp := (mem_entriesOf _ _ _).mp hmem
    by_cases hv : ∃ v, EvaluatedAt pol q.report p v
    · obtain ⟨v, hv⟩ := hv
      rw [htrend, hrun, writePoints_trend_of_some hp, writePoints_runCount, hp]
      rw [acceptedResults_of_evaluated hv] at hp
      cases hp
      exact ⟨v, hv, rfl, decide_eq_true_iff, rfl, rfl, rfl, rfl⟩
    · rw [acceptedResults_of_not_evaluated l c e fun v hv' => hv ⟨v, hv'⟩] at hp
      cases hp
  rw [judgeAccepted_eq] at ht
  refine ⟨t, l', entriesOf (acceptedResults pol l c e q.report), ht.exec, ht.only, ht.lane,
    acceptedResults_points pol l c e q.report, hentries, ?_, ?_, ?_, ?_, ?_, ?_, ?_, ?_, ?_, ?_⟩
  · rw [ht.queues, ht.fields]
    rfl
  · rw [ht.fields]; rfl
  · rw [ht.fields]; rfl
  · rw [ht.fields]; rfl
  · rw [ht.fields]; simp [writeMove, writeDay, writePoints, saturate]
  · rw [ht.fields]; simp [writeMove, writeDay, writePoints, saturate]
  · rw [ht.fields]; simp [writeMove, writeDay, writePoints, saturate]
  · intro x
    rw [ht.causes x]
    simp [writeMove, writeDay, writePoints]
  · rw [ht.attention]
    simp [writeMove, writeDay, writePoints]
  · rw [ht.joined]
    simp [writeMove, writeDay, writePoints]

/-! ### PROVE (R83 to R85) -/

/-- The trial on a lane that is found (R83, R84). -/
theorem proveBlock_of_lane {s : State} {rep : StripReport} {n : Nat} {l : Lane} {pol : Policy} {j : Judgement}
    (hl : s.laneAt rep.store rep.slot = some (n, l)) (hpol : (s.policies.get l.type).policy = some pol)
    (hj : judge s.lots.entries pol s.clock.day l (takeIn rep) = .ok j) :
    proveBlock rep s =
      answerDone s (.proved j.lotCase (trialOf j) (verdictOf none (takeIn rep) (some n) j.body)) := by
  have hl' : s.laneAt (takeIn rep).store (takeIn rep).slot = some (n, l) := hl
  simp only [proveBlock, hl', hpol, hj]

theorem proveBlock_of_noLane {s : State} {rep : StripReport} (hl : s.laneAt rep.store rep.slot = none) :
    proveBlock rep s = answerDone s (.proved none none (verdictOf none (takeIn rep) none (.refused .noLane))) := by
  have hl' : s.laneAt (takeIn rep).store (takeIn rep).slot = none := hl
  simp only [proveBlock, hl']

/-- Whatever its trial comes to, PROVE stops or answers DONE on the state it met. -/
theorem proveBlock_cases (rep : StripReport) (s : State) :
    (∃ f, proveBlock rep s = .error f) ∨ ∃ body, proveBlock rep s = answerDone s body := by
  unfold proveBlock
  dsimp only
  split
  · exact .inr ⟨_, rfl⟩
  · split
    · exact .inl ⟨_, rfl⟩
    · split
      · exact .inl ⟨_, rfl⟩
      · exact .inr ⟨_, rfl⟩

theorem exec_prove_of_takes {s : State} {rep : StripReport} {body : DoneBody} (h : Takes .supervision (.prove rep) s)
    (hb : proveBlock rep s = answerDone s body) :
    exec (.prove rep) s = .next (s.hold .supervision (.done body)) :=
  serve_takes_ok h hb

/-- Settles O17: the trial is committed nowhere. -/
theorem proveChangesNothing : Obligations.ProveChangesNothing := by
  refine fun s rep h => ⟨fun hserved => ?served, fun t ht => ?any⟩
  case served =>
    obtain ⟨lotCase, trial, v, hb⟩ := hserved.proveBlock_ok rep
    exact ⟨_, exec_prove_of_takes h hb⟩
  case any =>
    rcases proveBlock_cases rep s with ⟨f, hb⟩ | ⟨body, hb⟩
    · have hfault : exec (.prove rep) s = .fault f := (serve_takes h).trans (by rw [hb])
      rw [hfault] at ht
      cases ht
    · rw [exec_prove_of_takes h hb] at ht
      cases ht
      exact ⟨body, rfl⟩

/-- The lot case a trial on a lane reports (R62, R84). -/
theorem trialCase_of_judge {s : State} {rep : StripReport} {n : Nat} {l : Lane} {pol : Policy} {j : Judgement}
    (hl : s.laneAt rep.store rep.slot = some (n, l)) (hj : judge s.lots.entries pol s.clock.day l (takeIn rep) = .ok j) :
    TrialCase s rep j.lotCase := by
  have hsame : ∀ {m : Nat} {x : Lane}, s.laneAt rep.store rep.slot = some (m, x) → x = l := fun hx => by
    rw [hl] at hx
    cases hx
    rfl
  have hcases : ¬PassesDayChecks s l rep.day ∧ j.lotCase = none ∨
      PassesDayChecks s l rep.day ∧ j.lotCase = some (resolveLot s.lots.entries l rep.lot) := judge_lotCase hj
  refine ⟨fun hnone => ?noLane, fun m x hx hday => ?before, fun m x c hx hday hc => ?accepted,
    fun m x hx hday hun => ?refused⟩
  case noLane =>
    rw [hl] at hnone
    cases hnone
  all_goals
    obtain rfl := hsame hx
    rcases hcases with ⟨hno, hcase⟩ | ⟨hyes, hcase⟩
  case before.inl => exact hcase
  case before.inr => exact absurd hyes hday
  case accepted.inl => exact absurd hday hno
  case accepted.inr => rw [hcase, hc.resolveLot.1]
  case refused.inl => exact absurd hday hno
  case refused.inr => rw [hcase, resolveLot_refuses hun]

theorem trialCase_of_noLane {s : State} {rep : StripReport} (hl : s.laneAt rep.store rep.slot = none) :
    TrialCase s rep none :=
  ⟨fun _ => rfl, fun _ _ _ _ => rfl, fun _ _ _ h => absurd (hl.symm.trans h) nofun,
    fun _ _ h => absurd (hl.symm.trans h) nofun⟩

/-- Settles O18: the trial and the evaluation reach the same judgement. -/
theorem proveForetellsTheEvaluation : Obligations.ProveForetellsTheEvaluation := by
  refine ⟨fun s rep h hserved => ?reply, fun s rep q rest h hserved hroom hq hrep => ?foretells⟩
  case reply =>
    cases hl : s.laneAt rep.store rep.slot with
    | none => exact ⟨_, _, _, exec_prove_of_takes h (proveBlock_of_noLane hl), trialCase_of_noLane hl⟩
    | some x =>
      obtain ⟨n, l⟩ := x
      obtain ⟨pol, hpol⟩ := hserved.policy (lane_of_laneAt hl)
      obtain ⟨j, hj⟩ := hserved.judge_ok (lane_of_laneAt hl) pol (takeIn rep)
      exact ⟨_, _, _, exec_prove_of_takes h (proveBlock_of_lane hl hpol hj), trialCase_of_judge hl hj⟩
  case foretells =>
    have hawake : Awake s := ⟨h.1, h.2.1⟩
    cases hl : s.laneAt rep.store rep.slot with
    | none =>
      have hlq : s.laneAt q.report.store q.report.slot = none := by rw [hrep]; exact hl
      refine ⟨_, _, none, none, exec_evaluation_of_noLane hawake hroom hq hlq, rfl, ?_, trialCase_of_noLane hl,
        by simp [verdictOf], nofun⟩
      rw [exec_prove_of_takes h (proveBlock_of_noLane hl), hrep]
      rfl
    | some x =>
      obtain ⟨n, l⟩ := x
      obtain ⟨pol, hpol⟩ := hserved.policy (lane_of_laneAt hl)
      obtain ⟨j, hj⟩ := hserved.judge_ok (lane_of_laneAt hl) pol (takeIn rep)
      have hlq : s.laneAt q.report.store q.report.slot = some (n, l) := by rw [hrep]; exact hl
      obtain ⟨t, l', ht⟩ := Judges.evaluatedTo ⟨hawake, hroom, hq, hlq, hpol⟩ (hrep ▸ hj)
      refine ⟨t, verdictOf (some q.ticket) q.report (some n) j.body, j.lotCase, trialOf j, ht.exec, by rw [ht.queues], ?_,
        trialCase_of_judge hl hj, ?_, fun st settle clean htrial => ⟨n, l', rfl, ht.lane, ?_⟩⟩
      · rw [exec_prove_of_takes h (proveBlock_of_lane hl hpol hj), hrep]
        rfl
      · cases hbody : j.body <;> simp [trialOf, verdictOf, hbody]
      · unfold trialOf at htrial
        split at htrial <;> cases htrial
        rw [ht.fields]
        exact ⟨rfl, rfl, rfl⟩

end Sys2Proof.Machine
end

section
/-! The proofs of this family: the arithmetic of zones, run counts, outcomes and transitions, the missed-strip count in
two parts, and the values SET POLICY stores (chapters 2, 5, 6 and 7). -/
namespace Sys2Proof.Machine

/-! ### Zones, run counts, outcomes (Tables 5-1 and 5-5, R98) -/

theorem zoneOf_iff {l : Limits} {d : Int} (hlow : l.actionLow ≤ l.warnLow) (hlow0 : l.warnLow ≤ 0)
    (hhigh0 : 0 ≤ l.warnHigh) (hhigh : l.warnHigh ≤ l.actionHigh) :
    (zoneOf l d = .actionLow ↔ d < l.actionLow) ∧ (zoneOf l d = .warnLow ↔ l.actionLow ≤ d ∧ d < l.warnLow) ∧
    (zoneOf l d = .centre ↔ l.warnLow ≤ d ∧ d ≤ l.warnHigh) ∧
    (zoneOf l d = .warnHigh ↔ l.warnHigh < d ∧ d ≤ l.actionHigh) ∧ (zoneOf l d = .actionHigh ↔ l.actionHigh < d) := by
  unfold zoneOf
  split
  · simp; omega
  split
  · simp; omega
  split
  · simp; omega
  split
  · simp; omega
  · simp; omega

theorem newRunCount_eq (b : Nat) {r d : Int} (hlow : -15 ≤ r) (hhigh : r ≤ 15) :
    ((b : Int) < d → newRunCount b r d = if 0 < r then (if r = 15 then 15 else r + 1) else 1) ∧
    (d < -(b : Int) → newRunCount b r d = if r < 0 then (if r = -15 then -15 else r - 1) else -1) ∧
    (-(b : Int) ≤ d → d ≤ b → newRunCount b r d = 0) := by
  refine ⟨fun h => ?above, fun h => ?below, fun h1 h2 => ?within⟩
  case above =>
    rw [newRunCount, if_pos h]
    (repeat' split) <;> omega
  case below =>
    rw [newRunCount, if_neg (by omega), if_pos h]
    (repeat' split) <;> omega
  case within => rw [newRunCount, if_neg (by omega), if_neg (by omega)]

theorem Zone.isAction_iff (z : Zone) : z.isAction = true ↔ z = .actionLow ∨ z = .actionHigh := by
  cases z <;> simp [Zone.isAction]

theorem Zone.isWarn_iff (z : Zone) : z.isWarn = true ↔ z = .warnLow ∨ z = .warnHigh := by
  cases z <;> simp [Zone.isWarn]

theorem trendFlagged_iff (pol : Policy) (p : Point) (r : PointResult) : trendFlagged pol p r = true ↔
    16 * pol.driftThreshold.pick p ≤ r.trend.natAbs ∨ pol.runLength ≠ 0 ∧ pol.runLength ≤ r.runCount.natAbs := by
  simp [trendFlagged]

/-- Table 5-5 as a table of its three tests. -/
theorem outcome_of_tests : ∀ a f w : Bool,
    let o : ReadingOutcome := if a then .limit else if f then .trend else if w then .warn else .clean
    (o = .limit ↔ a = true) ∧ (o = .trend ↔ ¬a = true ∧ f = true) ∧ (o = .warn ↔ ¬a = true ∧ ¬f = true ∧ w = true) ∧
    (o = .clean ↔ ¬a = true ∧ ¬f = true ∧ ¬w = true) := by
  decide

/-- The four outcomes of Table 5-5, from the three tests over the entries. -/
theorem outcomeOf_iff (pol : Policy) (es : List (Point × PointResult)) :
    let action := ∃ e ∈ es, e.2.zone = .actionLow ∨ e.2.zone = .actionHigh
    let flagged := ∃ e ∈ es, 16 * pol.driftThreshold.pick e.1 ≤ e.2.trend.natAbs ∨
      pol.runLength ≠ 0 ∧ pol.runLength ≤ e.2.runCount.natAbs
    let warn := ∃ e ∈ es, e.2.zone = .warnLow ∨ e.2.zone = .warnHigh
    (outcomeOf pol es = .limit ↔ action) ∧ (outcomeOf pol es = .trend ↔ ¬action ∧ flagged) ∧
    (outcomeOf pol es = .warn ↔ ¬action ∧ ¬flagged ∧ warn) ∧
    (outcomeOf pol es = .clean ↔ ¬action ∧ ¬flagged ∧ ¬warn) := by
  intro action flagged warn
  have haction : (es.any fun e => e.2.zone.isAction) = true ↔ action := by
    simp only [List.any_eq_true, Zone.isAction_iff]; rfl
  have hflagged : (es.any fun e => trendFlagged pol e.1 e.2) = true ↔ flagged := by
    simp only [List.any_eq_true, trendFlagged_iff]; rfl
  have hwarn : (es.any fun e => e.2.zone.isWarn) = true ↔ warn := by
    simp only [List.any_eq_true, Zone.isWarn_iff]; rfl
  rw [← haction, ← hflagged, ← hwarn]
  exact outcome_of_tests _ _ _

/-- Settles O21: each clause is the case split of its definition. -/
theorem zonesRunCountsAndOutcomes : Obligations.ZonesRunCountsAndOutcomes :=
  ⟨fun _ _ h1 h2 h3 h4 => zoneOf_iff h1 h2 h3 h4, fun b _ _ h1 h2 => newRunCount_eq b h1 h2, outcomeOf_iff⟩

/-! ### Transitions (Table 6-2) -/

/-- Settles O22: Table 6-2, row by row. -/
theorem laneStatesMoveByOutcome : Obligations.LaneStatesMoveByOutcome := by
  refine fun pol l => ⟨fun h => ⟨?_, fun o ho => ?_⟩, fun h => ⟨?_, ?_, ?_, ?_⟩, fun h => ⟨?_, ?_, ?_⟩,
    fun h o ho => ?_, fun h => ?clear⟩
  case clear => rcases h with h | h <;> simp [moveLane, h, clearStep]
  · simp [moveLane, h]
  · cases o with
    | limit => exact absurd rfl ho
    | trend | warn | clean => simp [moveLane, h, settleStep]
  · simp [moveLane, h]
  · simp [moveLane, h]
  · simp [moveLane, h]
  · simp [moveLane, h]
  · simp [moveLane, h]
  · simp [moveLane, h]
  · simp [moveLane, h]
  · cases o with
    | clean => exact absurd rfl ho
    | limit | trend | warn => simp [moveLane, h]

/-- Settles O23: the row of STEADY in Table 6-2, with the counters of R120. -/
theorem steadyLanesMoveByOutcome : Obligations.SteadyLanesMoveByOutcome := by
  refine fun pol l h => ⟨fun o => ?progress, ?_, ?_, ?_, ?_⟩
  case progress => cases o <;> simp [moveLane, h, writeMove]
  all_goals simp [moveLane, h, writeMove, saturate]

/-! ### Missed strips (R138, R139) -/

theorem countDays_add (c : DayClock) (rest : Weekdays) (a m n : Nat) :
    countDays c rest a (m + n) = countDays c rest a m + countDays c rest (a + m) n := by
  induction n with
  | zero => rfl
  | succ n ih =>
    rw [← Nat.add_assoc, countDays, ih, countDays, Nat.add_assoc a m n]
    omega

/-- Seven values taken in turn, from any one of them on, are the seven values. -/
theorem sum_seven_in_turn (f : Nat → Nat) (x : Nat) :
    f ((x + 0) % 7) + f ((x + 1) % 7) + f ((x + 2) % 7) + f ((x + 3) % 7) + f ((x + 4) % 7) + f ((x + 5) % 7) +
      f ((x + 6) % 7) = f 0 + f 1 + f 2 + f 3 + f 4 + f 5 + f 6 := by
  have hturn : ∀ i, (x + i) % 7 = (x % 7 + i) % 7 := fun i => by omega
  have hlt : x % 7 < 7 := Nat.mod_lt x (by decide)
  simp only [hturn]
  generalize x % 7 = r at hlt
  interval_cases r <;> simp only [Nat.reduceAdd, Nat.reduceMod] <;> omega

/-- A whole week has every weekday once, from any day on. -/
theorem countDays_week (c : DayClock) (rest : Weekdays) (a : Nat) : countDays c rest a 7 = workdays rest := by
  have hsum := sum_seven_in_turn (fun w => if !rest.has w then 1 else 0) (a + c.weekdayBase)
  have hday : ∀ i, expectedDay c rest (a + i) = !rest.has ((a + c.weekdayBase + i) % 7) := fun i => by
    rw [expectedDay, DayClock.weekday, Nat.add_right_comm]
  have hwork : workdays rest = (if !rest.has 0 then 1 else 0) + (if !rest.has 1 then 1 else 0) +
      (if !rest.has 2 then 1 else 0) + (if !rest.has 3 then 1 else 0) + (if !rest.has 4 then 1 else 0) +
      (if !rest.has 5 then 1 else 0) + if !rest.has 6 then 1 else 0 := by
    simp only [workdays, List.range_succ, List.range_zero, List.nil_append, List.cons_append,
      List.countP_cons, List.countP_nil]
    omega
  simp only [countDays, hday]
  rw [hwork]
  omega

theorem countDays_weeks (c : DayClock) (rest : Weekdays) (a k : Nat) :
    countDays c rest a (7 * k) = k * workdays rest := by
  induction k generalizing a with
  | zero => simp [countDays]
  | succ k ih => rw [Nat.mul_succ, countDays_add, ih, countDays_week, Nat.succ_mul]

/-- The two parts of R139 are the days counted one by one. -/
theorem daysBetween_eq_countDays (c : DayClock) (rest : Weekdays) (s : Nat) :
    daysBetween c rest s = countDays c rest (s + 1) (c.day - 1 - s) := by
  have hsplit : c.day - 1 - s = (c.day - 1 - s) % 7 + 7 * ((c.day - 1 - s) / 7) := (Nat.mod_add_div ..).symm
  rw [daysBetween]
  conv_rhs => rw [hsplit, countDays_add, countDays_weeks]
  exact Nat.add_comm ..

/-- The days counted one by one are the expected days strictly between. -/
theorem length_filter_between (c : DayClock) (rest : Weekdays) (s n : Nat) :
    ((List.range n).filter fun d => decide (s < d) && expectedDay c rest d).length =
      countDays c rest (s + 1) (n - 1 - s) := by
  induction n with
  | zero => simp [countDays]
  | succ n ih =>
    rw [List.range_succ, List.filter_append, List.length_append, ih]
    by_cases hs : s < n
    · obtain ⟨m, rfl⟩ : ∃ m, n = s + 1 + m := ⟨n - (s + 1), by omega⟩
      have hlast : s + 1 + m + 1 - 1 - s = m + 1 := by omega
      have hbefore : s + 1 + m - 1 - s = m := by omega
      rw [hlast, hbefore, countDays]
      cases hday : expectedDay c rest (s + 1 + m) <;> simp [hday, hs]
    · have hnone : n + 1 - 1 - s = 0 := by omega
      have hnone' : n - 1 - s = 0 := by omega
      rw [hnone, hnone']
      simp [hs]

/-- Settles O24: whole weeks and tail are the days one by one, and those are the days of the filter. -/
theorem missedStripsCountTheDaysBetween : Obligations.MissedStripsCountTheDaysBetween := by
  intro c l expected since between
  have hbetween : daysBetween c l.restMask since = between :=
    (daysBetween_eq_countDays c l.restMask since).trans (length_filter_between c l.restMask since c.day).symm
  refine ⟨hbetween, ?_⟩
  rw [missedStrips]
  exact congrArg (fun n => min (n + todayTerm c l.restMask l.lastDay) 255) hbetween

/-! ### The policy as stored (R29 to R36) -/

theorem storedLimits_of_inRange {l : Limits} (h : -1000 ≤ l.actionLow ∧ l.actionLow ≤ l.warnLow ∧ l.warnLow ≤ 0 ∧
    0 ≤ l.warnHigh ∧ l.warnHigh ≤ l.actionHigh ∧ l.actionHigh ≤ 1000) : storedLimits l = l := by
  obtain ⟨h1, h2, h3, h4, h5, h6⟩ := h
  cases l
  dsimp only at h1 h2 h3 h4 h5 h6
  simp only [storedLimits, clamp, Limits.mk.injEq]
  omega

theorem storedRunLength_of_inRange {n : Nat} (h : n = 0 ∨ 3 ≤ n ∧ n ≤ 15) : storedRunLength n = n := by
  unfold storedRunLength
  split
  · omega
  · exact clampNat_of_mem (by omega) (by omega)

theorem storedPolicy_of_inRange {b : Policy} (h : PolicyInRange b) : storedPolicy b = b := by
  have hlimits : (storedPolicy b).limits = b.limits := points_ext fun p => by
    rw [storedPolicy_limits, storedLimits_of_inRange (h.limits p)]
  have hthreshold : (storedPolicy b).driftThreshold = b.driftThreshold := points_ext fun p => by
    rw [storedPolicy_threshold, clampNat_of_mem (h.threshold p).1 (h.threshold p).2]
  have hmask : b.noticeMask.add .action = b.noticeMask := Causes.add_of_has h.action
  cases b
  simp only [storedPolicy] at hlimits hthreshold hmask ⊢
  rw [hlimits, hthreshold, hmask, clampNat_of_mem h.shift.1 h.shift.2, clampNat_of_mem (Nat.zero_le _) h.deadband,
    storedRunLength_of_inRange h.runLength, clampNat_of_mem h.settle.1 h.settle.2, clampNat_of_mem h.clear.1 h.clear.2,
    clampNat_of_mem h.overdue.1 h.overdue.2]

/-- Adding ACTION to the mask of a request does not change what is stored. -/
theorem storedPolicy_addAction (b : Policy) :
    storedPolicy { b with noticeMask := b.noticeMask.add .action } = storedPolicy b := by
  simp only [storedPolicy, Causes.add_of_has (Causes.has_add b.noticeMask .action)]

theorem adjusted_eq_false_iff (b : Policy) :
    adjusted b (storedPolicy b) = false ↔ PolicyInRange { b with noticeMask := b.noticeMask.add .action } := by
  rw [adjusted, decide_eq_false_iff_not, not_not]
  refine ⟨fun h => ?_, fun h => ?_⟩
  · rw [← h]
    exact storedPolicy_inRange b
  · rw [← storedPolicy_addAction, storedPolicy_of_inRange h]

theorem clampNat_one_eq (top n : Nat) (h : 1 ≤ top) : clampNat 1 top n = if n = 0 then 1 else min n top := by
  unfold clampNat
  split <;> omega

/-- The nearest end of each limit's range, and the warn limits brought inside (R29). -/
theorem storedLimits_eq (l : Limits) :
    let low := fun x : Int => if x < -1000 then -1000 else if 0 < x then 0 else x
    let high := fun x : Int => if x < 0 then 0 else if 1000 < x then 1000 else x
    (storedLimits l).actionLow = low l.actionLow ∧ (storedLimits l).actionHigh = high l.actionHigh ∧
    (storedLimits l).warnLow =
      (if low l.warnLow < (storedLimits l).actionLow then (storedLimits l).actionLow else low l.warnLow) ∧
    (storedLimits l).warnHigh =
      (if (storedLimits l).actionHigh < high l.warnHigh then (storedLimits l).actionHigh else high l.warnHigh) := by
  intro low high
  have hlow : ∀ x, clamp (-1000) 0 x = low x := fun x => by simp only [clamp, low]; (repeat' split) <;> omega
  have hhigh : ∀ x, clamp 0 1000 x = high x := fun x => by simp only [clamp, high]; (repeat' split) <;> omega
  simp only [storedLimits, hlow, hhigh, true_and]
  refine ⟨?_, ?_⟩ <;> split <;> omega

/-- Settles O25: the stored policy field by field. -/
theorem storedPoliciesAreInRange : Obligations.StoredPoliciesAreInRange := by
  refine ⟨fun b => ⟨storedPolicy_inRange b, storedPolicy_of_inRange, adjusted_eq_false_iff b⟩, fun b => ⟨rfl, fun p => ?_,
    fun p => ?_, clampNat_one_eq 4 _ (by decide), ?_, fun h => ?_, fun h => ?_, fun h1 h2 => ?_, fun h => ?_,
    clampNat_one_eq 8 _ (by decide), clampNat_one_eq 8 _ (by decide), clampNat_one_eq 7 _ (by decide), fun c => ?_⟩⟩
  · simp only [storedPolicy_limits]
    exact storedLimits_eq (b.limits.pick p)
  · rw [storedPolicy_threshold, clampNat_one_eq 1000 _ (by decide)]
  · show max 0 (min 100 b.deadband) = min b.deadband 100
    omega
  · simp [storedPolicy, storedRunLength, h]
  · rcases h with h | h <;> simp [storedPolicy, storedRunLength, clampNat, h]
  · exact storedRunLength_of_inRange (.inr ⟨h1, h2⟩)
  · show storedRunLength b.runLength = 15
    rw [storedRunLength, if_neg (by omega), clampNat]
    omega
  · rw [Bool.eq_iff_iff, Bool.or_eq_true, decide_eq_true_iff]
    exact Causes.has_add_iff b.noticeMask .action c

end Sys2Proof.Machine
end

section
/-! The proofs of this family: the lane that CREATE LANE makes with every record it moves, its refusals in order, and
the lane that RETIRE LANE removes (chapter 1). -/
namespace Sys2Proof.Machine

/-! ### The lowest vacant place (R6) -/

theorem PoolSound.vacant_spec {s : State} (h : PoolSound s) : s.lane (Table.vacant 0 s.store.pool) = none ∧
    ∀ m, s.lane m = none → Table.vacant 0 s.store.pool ≤ m := by
  obtain ⟨-, hfree, hleast⟩ := Table.vacant_spec 0 s.store.pool h.canonical fun _ _ => Nat.zero_le _
  refine ⟨hfree, fun m hm => Nat.le_of_not_lt fun hlt => ?_⟩
  have hsome := hleast m (Nat.zero_le m) hlt
  rw [show Table.find m s.store.pool = none from hm] at hsome
  cases hsome

theorem PoolSound.vacant_eq {s : State} (h : PoolSound s) {n : Nat} (hfree : s.lane n = none)
    (hleast : ∀ m, m < n → (s.lane m).isSome = true) : Table.vacant 0 s.store.pool = n := by
  obtain ⟨hvacant, hmin⟩ := h.vacant_spec
  refine Nat.le_antisymm (hmin n hfree) (Nat.le_of_not_lt fun hlt => ?_)
  have hsome := hleast _ hlt
  rw [hvacant] at hsome
  cases hsome

/-! ### CREATE LANE (R12, R13) -/

section
variable {s : State} {c : LaneCreation} {i : SlotNumber} {type : ProcessType}

/-- The checks of R12 after the first, on a well-formed store, slot and type. -/
theorem createLaneBlock_of_wellFormed (hstore : c.store ≠ 0) (hslot : c.slot = i) (htype : c.type = type) :
    createLaneBlock c s =
      if ((siteSlots c.store s.store.directory).bind fun x => x.get i).isSome then answer s .laneExists
      else if (s.policies.get type).policy.isNone then answer s .noPolicy
      else
        match lotInState type .current s.lots.entries with
        | none => answer s .noCurrentLot
        | some active =>
          if 1536 ≤ Table.vacant 0 s.store.pool then answer s .poolFull
          else if (siteSlots c.store s.store.directory).isNone && decide (512 ≤ s.store.directory.length) then
            answer s .directoryFull
          else
            answerDone (s.addLane (Table.vacant 0 s.store.pool) (newLane c i type active
              (lotInState type .rolling s.lots.entries) s.clock.day s.sweeps.periodNumber))
              (.laneRecord (Table.vacant 0 s.store.pool) (newLane c i type active
                (lotInState type .rolling s.lots.entries) s.clock.day s.sweeps.periodNumber)) := by
  simp only [createLaneBlock, hslot, htype, slotNumber_val, processType_val, if_neg hstore] <;> rfl

theorem createLaneBlock_of_malformed (h : c.store = 0 ∨ 3 < c.slot ∨ 7 < c.type) :
    createLaneBlock c s = answer s .malformed := by
  unfold createLaneBlock
  split
  · rename_i slot type hslot htype
    have hslot' : c.slot < 4 := by
      unfold slotNumber at hslot
      split at hslot
      · assumption
      · cases hslot
    have htype' : c.type < 8 := by
      unfold processType at htype
      split at htype
      · assumption
      · cases htype
    rw [if_pos (by omega)]
  · rfl

end

/-- Settles O27: each check of R12 answers when those before it pass. -/
theorem createLaneRefusesInOrder : Obligations.CreateLaneRefusesInOrder := by
  refine fun s c h => ⟨fun hbad => serve_takes_ok h (createLaneBlock_of_malformed hbad), fun i type hstore hslot htype =>
    ⟨fun hex => serve_takes_ok h ?occupied, fun hempty => ⟨fun hp => serve_takes_ok h ?policy,
      fun hp => ⟨fun hcur => serve_takes_ok h ?current, fun hcur hs => ⟨fun hfull => serve_takes_ok h ?full,
        fun m hm hfree hnew hdir => serve_takes_ok h ?directory⟩⟩⟩⟩⟩ <;>
    rw [createLaneBlock_of_wellFormed hstore hslot htype]
  case occupied => rw [if_pos (Option.isSome_iff_ne_none.mpr hex)]; rfl
  case policy => simp [hempty, hp, answer]
  case current => simp [hempty, hp, hcur, answer]
  case full =>
    obtain ⟨active, hactive⟩ := Option.ne_none_iff_exists'.mp hcur
    have hplaces : 1536 ≤ Table.vacant 0 s.store.pool :=
      Nat.le_of_not_lt fun hlt => hfull _ hlt hs.vacant_spec.1
    simp [hempty, hp, hactive, hplaces, answer]
  case directory =>
    obtain ⟨active, hactive⟩ := Option.ne_none_iff_exists'.mp hcur
    have hplaces : ¬1536 ≤ Table.vacant 0 s.store.pool := by
      have := hs.vacant_spec.2 m hfree
      omega
    simp [hnew, hp, hactive, hplaces, hdir, answer]

/-- Settles O26: the new lane is the record of Table 1-2, and every count and record that moves is the one of
`State.addLane`. -/
theorem createLaneMakesTheLane : Obligations.CreateLaneMakesTheLane := by
  intro s c i type active n h hs hd hstore hslot htype hempty hpolicy hactive hn hfree hleast hroom
  have hvacant := hs.vacant_eq hfree hleast
  have hnot : ¬(1536 : Nat) ≤ n := Nat.not_le.mpr hn
  have hdirectory : ((siteSlots c.store s.store.directory).isNone && decide (512 ≤ s.store.directory.length)) =
      false := by
    cases hx : siteSlots c.store s.store.directory with
    | none => simpa using hroom hx
    | some x => rfl
  have hblock : createLaneBlock c s = answerDone (s.addLane n (newLane c i type active
      (lotInState type .rolling s.lots.entries) s.clock.day s.sweeps.periodNumber)) (.laneRecord n (newLane c i type
      active (lotInState type .rolling s.lots.entries) s.clock.day s.sweeps.periodNumber)) := by
    rw [createLaneBlock_of_wellFormed hstore hslot htype, hempty, hactive, hvacant, hdirectory,
      Option.isNone_eq_false_iff.mpr hpolicy]
    simp [hnot]
  obtain ⟨-, hown, hothers, hinserted, -⟩ := nameSlot_spec c.store i n s.store.directory hd.ascending
  refine ⟨_, _, serve_takes_ok h hblock, rfl, fun p => ?offsets, by rw [addLane_lane, if_pos rfl],
    fun m hm => by rw [addLane_lane, if_neg hm], rfl, ?sites, hown, hothers, fun u => ?policies, fun m => ?lots, rfl, rfl,
    rfl, rfl, rfl, rfl, rfl, rfl, rfl⟩
  case offsets => cases ho : c.offsets <;> simp [newLane, ho, clamp]
  case sites =>
    rw [State.addLane_siteCount]
    show (if (nameSlot c.store i n s.store.directory).2 = true then _ else _) = _
    rw [hinserted]
    cases siteSlots c.store s.store.directory <;> rfl
  case policies =>
    rw [State.addLane_policies, PerType.get_put_eq_ite]
    by_cases hu : u = type
    · subst hu; simp [newLane]
    · simp [newLane, hu]
  case lots =>
    rw [State.addLane_lots, find_recount]
    rfl

/-! ### RETIRE LANE (R19) -/

/-- What the retirement of a lane of a sound store leaves, record by record (R10, R19, R27, R43, R165). -/
structure LaneRetired (s t : State) (n : Nat) (l : Lane) (x : Slots (Option Nat)) : Prop where
  lane : t.lane n = none
  others : ∀ m, m ≠ n → t.lane m = s.lane m
  occupiedLanes : t.store.occupiedLanes = s.store.occupiedLanes - 1
  siteCount : t.store.siteCount = s.store.siteCount - (if x.put l.slot none = Slots.vacant then 1 else 0)
  own : siteSlots l.store t.store.directory =
    if x.put l.slot none = Slots.vacant then none else some (x.put l.slot none)
  otherStores : ∀ b, b ≠ l.store → siteSlots b t.store.directory = siteSlots b s.store.directory
  policies : ∀ u, t.policies.get u = { s.policies.get u with
    laneCount := (s.policies.get u).laneCount - if u = l.type then 1 else 0 }
  lots : ∀ m, Table.find m t.lots.entries = (Table.find m s.lots.entries).map fun e => { e with
    users := e.users - (if m = l.activeLot then 1 else 0) - (if l.pendingLot = some m then 1 else 0) }
  lotCount : t.lots.count = s.lots.count
  attention : t.attention = { s.attention with
    order := s.attention.order.erase n
    length := s.attention.length - if n ∈ s.attention.order then 1 else 0 }
  pending : t.pending = s.pending
  lines : t.lines = s.lines
  ports : t.ports = s.ports
  queues : t.queues = s.queues
  clock : t.clock = s.clock
  sweeps : t.sweeps = s.sweeps
  status : t.status = s.status

theorem retire_siteCount_eq {s : State} {n : Nat} {l : Lane} {left : Slots (Option Nat)}
    (h : (emptySlot l.store l.slot s.store.directory).2 = decide (left = Slots.vacant)) :
    (s.retire n l).1.store.siteCount = s.store.siteCount - if left = Slots.vacant then 1 else 0 := by
  rw [State.retire_siteCount, h]
  by_cases hv : left = Slots.vacant <;> simp [hv]

theorem retire_laneRetired {s : State} (hs : PoolSound s) (hd : Ascending s.store.directory) {n : Nat} {l : Lane}
    {x : Slots (Option Nat)} (hx : siteSlots l.store s.store.directory = some x) :
    LaneRetired s (s.retire n l).1 n l x ∧ (s.retire n l).2 = decide (x.put l.slot none = Slots.vacant) := by
  obtain ⟨-, hown, hothers, hremoved, -⟩ := emptySlot_spec l.store l.slot s.store.directory x hd hx
  refine ⟨{ lane := ?_, others := fun m hm => ?_, occupiedLanes := rfl, siteCount := retire_siteCount_eq hremoved,
            own := hown, otherStores := hothers, policies := fun u => ?_, lots := fun m => ?_, lotCount := rfl,
            attention := AttentionList.leave_eq .., pending := rfl, lines := rfl, ports := rfl, queues := rfl,
            clock := rfl, sweeps := rfl, status := rfl }, hremoved⟩
  · rw [retire_lane hs, if_pos rfl]
  · rw [retire_lane hs, if_neg hm]
  · rw [State.retire_policies, PerType.get_put_eq_ite]
    by_cases hu : u = l.type <;> simp [hu]
  · rw [State.retire_lots, find_recount]

/-- Settles O31: the lock gate, then the one retirement. -/
theorem retireLaneRemovesTheLane : Obligations.RetireLaneRemovesTheLane := by
  intro s name line n l h hs hd hn
  refine ⟨fun hgate => serve_onLane (h.drive line) hn ?gate, fun hgate => ?_⟩
  case gate => rw [if_pos ((lockGate_drive s line l).mpr hgate)]; rfl
  obtain ⟨x, hx, -⟩ := hd.maps.named n l (lane_of_named hn)
  obtain ⟨r, hremoved⟩ := retire_laneRetired (s := s.drive line) (hs.of_eq rfl) hd.ascending hx (n := n)
  refine ⟨((s.drive line).retire n l).1, x, hx, ?_, r.lane, r.others, r.occupiedLanes, r.siteCount, r.own, r.otherStores,
    r.policies, r.lots, r.lotCount, r.attention, r.pending, r.lines, r.ports, r.queues, r.clock, r.sweeps, r.status⟩
  rw [← hremoved]
  exact serve_onLane (h.drive line) hn (by rw [if_neg (fun hg => hgate ((lockGate_drive s line l).mp hg))]; rfl)

end Sys2Proof.Machine
end

section
/-! The proofs of this family: RETIRE SITE, its slots retired one after the other (R21). The invariant `SiteProgress`
says what stands once some of the slots have been retired; one slot takes it one step on. -/
namespace Sys2Proof.Machine

/-! ### The slots that are kept -/

/-- The slots of a store with those retired emptied. -/
def keptSlots (gone : SlotNumber → Bool) (x : Slots (Option Nat)) : Slots (Option Nat) :=
  ⟨if gone 0 then none else x.s0, if gone 1 then none else x.s1, if gone 2 then none else x.s2,
    if gone 3 then none else x.s3⟩

theorem keptSlots_get (gone : SlotNumber → Bool) (x : Slots (Option Nat)) (i : SlotNumber) :
    (keptSlots gone x).get i = if gone i then none else x.get i := by
  match i with
  | 0 | 1 | 2 | 3 => rfl

theorem keptSlots_none (x : Slots (Option Nat)) : keptSlots (fun _ => false) x = x := rfl

/-- One slot more among those retired. -/
def alsoGone (gone : SlotNumber → Bool) (i : SlotNumber) : SlotNumber → Bool := fun j => gone j || decide (j = i)

theorem keptSlots_alsoGone (gone : SlotNumber → Bool) (x : Slots (Option Nat)) (i : SlotNumber) :
    keptSlots (alsoGone gone i) x = (keptSlots gone x).put i none := by
  match i with
  | 0 | 1 | 2 | 3 => simp [keptSlots, alsoGone, Slots.put]

/-! ### The lanes that are retired, counted by what they were -/

/-- A slot that is retired, of a lane that was as `which` asks. -/
def retiredWhere (s : State) (x : Slots (Option Nat)) (gone : SlotNumber → Bool) (which : Lane → Bool)
    (i : SlotNumber) : Bool :=
  gone i && ((x.get i).bind s.lane).any which

/-- The number of slots retired whose lanes were as `which` asks. -/
def retiredCount (s : State) (x : Slots (Option Nat)) (gone : SlotNumber → Bool) (which : Lane → Bool) : Nat :=
  [(0 : SlotNumber), 1, 2, 3].countP (retiredWhere s x gone which)

theorem retiredCount_none (s : State) (x : Slots (Option Nat)) (which : Lane → Bool) :
    retiredCount s x (fun _ => false) which = 0 := rfl

/-- Two tests that differ at one member alone, which the first does not pass. -/
theorem countP_of_one {α : Type} {p p' : α → Bool} {i : α} {xs : List α} (hnodup : xs.Nodup) (hmem : i ∈ xs)
    (hi : p i = false) (hrest : ∀ j, j ≠ i → p' j = p j) : xs.countP p' = xs.countP p + (p' i).toNat := by
  induction xs with
  | nil => cases hmem
  | cons a xs ih =>
    obtain ⟨ha, hnodup⟩ := List.nodup_cons.mp hnodup
    rw [List.countP_cons, List.countP_cons]
    rcases List.mem_cons.mp hmem with rfl | hmem
    · have htail : xs.countP p' = xs.countP p :=
        List.countP_congr fun j hj => by rw [hrest j fun he => ha (he ▸ hj)]
      rw [htail, hi]
      cases p' i <;> rfl
    · rw [ih hnodup hmem, hrest a fun he => ha (he ▸ hmem)]
      omega

theorem retiredCount_alsoGone {s : State} {x : Slots (Option Nat)} {gone : SlotNumber → Bool} {i : SlotNumber} {n : Nat}
    {l : Lane} (hi : gone i = false) (hx : x.get i = some n) (hl : s.lane n = some l) (which : Lane → Bool) :
    retiredCount s x (alsoGone gone i) which = retiredCount s x gone which + (which l).toNat := by
  have hmem : i ∈ [(0 : SlotNumber), 1, 2, 3] := by
    match i with
    | 0 | 1 | 2 | 3 => decide
  have hbefore : retiredWhere s x gone which i = false := by simp [retiredWhere, hi]
  have hself : retiredWhere s x (alsoGone gone i) which i = which l := by simp [retiredWhere, alsoGone, hx, hl]
  rw [retiredCount, countP_of_one (by decide) hmem hbefore fun j hj => by simp [retiredWhere, alsoGone, hj], hself]
  rfl

/-! ### The invariant, and one slot -/

/-- What stands once the slots `gone` of a store, which had the slots `x` in the state `s`, have been retired. -/
structure SiteProgress (s : State) (store : Nat) (x : Slots (Option Nat)) (gone : SlotNumber → Bool) (t : State) :
    Prop where
  pool : PoolSound t
  ascending : Ascending t.store.directory
  removed : ∀ i n, gone i = true → x.get i = some n → t.lane n = none
  kept : ∀ n, (∀ i, gone i = true → x.get i ≠ some n) → t.lane n = s.lane n
  occupiedLanes : t.store.occupiedLanes = s.store.occupiedLanes - retiredCount s x gone fun _ => true
  siteCount : t.store.siteCount = s.store.siteCount - if keptSlots gone x = Slots.vacant then 1 else 0
  own : siteSlots store t.store.directory =
    if keptSlots gone x = Slots.vacant then none else some (keptSlots gone x)
  otherStores : ∀ b, b ≠ store → siteSlots b t.store.directory = siteSlots b s.store.directory
  policies : ∀ u, t.policies.get u = { s.policies.get u with
    laneCount := (s.policies.get u).laneCount - retiredCount s x gone fun l => l.type = u }
  lots : ∀ m, Table.find m t.lots.entries = (Table.find m s.lots.entries).map fun e => { e with
    users := e.users - (retiredCount s x gone fun l => l.activeLot = m) -
      retiredCount s x gone fun l => l.pendingLot = some m }
  lotCount : t.lots.count = s.lots.count
  list : ListSound s → t.attention = { s.attention with
    order := s.attention.order.filter fun n => (t.lane n).isSome
    length := (s.attention.order.filter fun n => (t.lane n).isSome).length }
  pending : t.pending = s.pending
  lines : t.lines = s.lines
  ports : t.ports = s.ports
  queues : t.queues = s.queues
  clock : t.clock = s.clock
  sweeps : t.sweeps = s.sweeps
  status : t.status = s.status

section
variable {s t : State} {store : Nat} {x : Slots (Option Nat)} {gone : SlotNumber → Bool}

/-- Before any slot is retired. -/
theorem siteProgress_none (hs : PoolSound s) (hd : DirectoryMaps s) (hx : siteSlots store s.store.directory = some x) :
    SiteProgress s store x (fun _ => false) s where
  pool := hs
  ascending := hd.ascending
  removed _ _ h := by cases h
  kept _ _ := rfl
  occupiedLanes := rfl
  siteCount := by rw [keptSlots_none, if_neg (hd.occupied store x hx)]; rfl
  own := by rw [keptSlots_none, if_neg (hd.occupied store x hx), hx]
  otherStores _ _ := rfl
  policies _ := rfl
  lots m := by simp [retiredCount_none]
  lotCount := rfl
  list h := by
    have hall : s.attention.order.filter (fun n => (s.lane n).isSome) = s.attention.order := by
      refine List.filter_eq_self.mpr fun n hn => ?_
      obtain ⟨l, hl, -⟩ := (h.listed n).mp hn
      simp [hl]
    rw [hall, ← h.length]
  pending := rfl
  lines := rfl
  ports := rfl
  queues := rfl
  clock := rfl
  sweeps := rfl
  status := rfl

/-- A lane of a slot that is not retired stands as it did. -/
theorem SiteProgress.lane_of_slot (h : SiteProgress s store x gone t) (hd : DirectoryMaps s)
    (hx : siteSlots store s.store.directory = some x) {i : SlotNumber} {n : Nat} (hi : gone i = false)
    (hn : x.get i = some n) : t.lane n = s.lane n := by
  refine h.kept n fun j hj hjn => ?_
  obtain ⟨l, hl, -, hli⟩ := hd.names store x i n hx hn
  obtain ⟨l', hl', -, hlj⟩ := hd.names store x j n hx hjn
  rw [hl] at hl'
  cases hl'
  rw [← hlj, hli, hi] at hj
  cases hj

/-- One slot more retired. -/
theorem SiteProgress.retire (h : SiteProgress s store x gone t) (hd : DirectoryMaps s)
    (hx : siteSlots store s.store.directory = some x) {i : SlotNumber} {n : Nat} {l : Lane} (hi : gone i = false)
    (hn : x.get i = some n) (hl : s.lane n = some l) (hstore : l.store = store) (hslot : l.slot = i) :
    SiteProgress s store x (alsoGone gone i) (t.retire n l).1 := by
  subst hstore
  have htl : t.lane n = some l := (h.lane_of_slot hd hx hi hn).trans hl
  have hnonvacant : keptSlots gone x ≠ Slots.vacant := fun hv => by
    have hnone := (Slots.eq_vacant_iff _).mp hv i
    rw [keptSlots_get, hi, hn] at hnone
    cases hnone
  have hown : siteSlots l.store t.store.directory = some (keptSlots gone x) := by rw [h.own, if_neg hnonvacant]
  obtain ⟨hascending, -⟩ := emptySlot_spec l.store l.slot t.store.directory _ h.ascending hown
  obtain ⟨r, -⟩ := retire_laneRetired h.pool h.ascending hown (n := n)
  have hslots : keptSlots (alsoGone gone i) x = (keptSlots gone x).put l.slot none := by
    rw [keptSlots_alsoGone, hslot]
  have hcount := fun which => retiredCount_alsoGone (s := s) hi hn hl which
  have hgone : ∀ j, alsoGone gone i j = true ↔ gone j = true ∨ j = i := fun j => by simp [alsoGone]
  constructor
  case pool => exact h.pool.retire htl
  case ascending => exact hascending
  case removed =>
    intro j m hj hm
    by_cases hmn : m = n
    · subst hmn; exact r.lane
    · rw [r.others m hmn]
      rcases (hgone j).mp hj with hj | rfl
      · exact h.removed j m hj hm
      · exact absurd (Option.some.inj (hm.symm.trans hn)) hmn
  case kept =>
    intro m hm
    have hmn : m ≠ n := fun heq => hm i ((hgone i).mpr (.inr rfl)) (heq ▸ hn)
    rw [r.others m hmn]
    exact h.kept m fun j hj => hm j ((hgone j).mpr (.inl hj))
  case occupiedLanes => rw [r.occupiedLanes, h.occupiedLanes, hcount, Nat.sub_sub]; rfl
  case siteCount => rw [r.siteCount, h.siteCount, if_neg hnonvacant, hslots]; rfl
  case own => rw [r.own, hslots]
  case otherStores => exact fun b hb => (r.otherStores b hb).trans (h.otherStores b hb)
  case policies =>
    intro u
    rw [r.policies, h.policies, hcount]
    simp only [Nat.sub_sub, Bool.toNat, Bool.cond_decide, eq_comm]
  case lots =>
    intro m
    rw [r.lots, h.lots, Option.map_map]
    congr 1
    funext e
    simp only [Function.comp_apply, hcount, Bool.toNat, Bool.cond_decide, eq_comm (a := l.activeLot)]
    congr 1
    omega
  case lotCount => exact r.lotCount.trans h.lotCount
  case list =>
    intro hlist
    have hfilter : (s.attention.order.filter fun m => (t.lane m).isSome).erase n =
        s.attention.order.filter fun m => ((t.retire n l).1.lane m).isSome := by
      rw [(hlist.once.filter _).erase_eq_filter, List.filter_filter]
      refine List.filter_congr fun m _ => ?_
      by_cases hmn : m = n
      · subst hmn; simp [r.lane]
      · simp [r.others m hmn, hmn]
    rw [r.attention, h.list hlist]
    dsimp only
    rw [← hfilter, List.length_erase]
    congr 1
    split <;> simp
  case pending => exact r.pending.trans h.pending
  case lines => exact r.lines.trans h.lines
  case ports => exact r.ports.trans h.ports
  case queues => exact r.queues.trans h.queues
  case clock => exact r.clock.trans h.clock
  case sweeps => exact r.sweeps.trans h.sweeps
  case status => exact r.status.trans h.status

/-- What the outcome of a slot tells (R21). -/
def SlotTreated (s : State) (x : Slots (Option Nat)) (i : SlotNumber) (o : SlotOutcome) : Prop :=
  match x.get i with
  | none => o = .empty
  | some n => ∃ l, s.lane n = some l ∧ if s.lockGate l = true then o = .skippedLocked else o = .retired

/-- The slots retired once one slot more has had its outcome. -/
def goneAfter (gone : SlotNumber → Bool) (i : SlotNumber) (o : SlotOutcome) : SlotNumber → Bool :=
  fun j => gone j || (decide (j = i) && decide (o = .retired))

theorem goneAfter_of_retired (gone : SlotNumber → Bool) (i : SlotNumber) :
    goneAfter gone i .retired = alsoGone gone i := by
  funext j
  simp [goneAfter, alsoGone]

theorem goneAfter_of_kept (gone : SlotNumber → Bool) (i : SlotNumber) {o : SlotOutcome} (h : o ≠ .retired) :
    goneAfter gone i o = gone := by
  funext j
  simp [goneAfter, h]

/-- One slot of RETIRE SITE takes the invariant one step on (R21). -/
theorem SiteProgress.retireSlot (h : SiteProgress s store x gone t) (hd : DirectoryMaps s)
    (hx : siteSlots store s.store.directory = some x) {i : SlotNumber} (hi : gone i = false) :
    SlotTreated s x i (retireSlot t (x.get i)).2 ∧
      SiteProgress s store x (goneAfter gone i (retireSlot t (x.get i)).2) (retireSlot t (x.get i)).1 := by
  unfold SlotTreated
  cases hn : x.get i with
  | none =>
    refine ⟨rfl, ?_⟩
    rw [goneAfter_of_kept gone i (o := (Machine.retireSlot t none).2) nofun]
    exact h
  | some n =>
    obtain ⟨l, hl, hstore, hslot⟩ := hd.names store x i n hx hn
    have htl : t.lane n = some l := (h.lane_of_slot hd hx hi hn).trans hl
    have hgate : t.lockGate l = s.lockGate l := by rw [State.lockGate, State.lockGate, h.lines]
    have hslotIs : Machine.retireSlot t (some n) =
        if s.lockGate l then (t, .skippedLocked) else ((t.retire n l).1, .retired) := by
      rw [Machine.retireSlot, Option.bind_some, htl, ← hgate]
      rfl
    rw [hslotIs]
    by_cases hlocked : s.lockGate l = true
    · rw [if_pos hlocked]
      refine ⟨⟨l, hl, by rw [if_pos hlocked]⟩, ?_⟩
      rw [goneAfter_of_kept gone i (o := .skippedLocked) nofun]
      exact h
    · rw [if_neg hlocked]
      refine ⟨⟨l, hl, by rw [if_neg hlocked]⟩, ?_⟩
      rw [goneAfter_of_retired]
      exact h.retire hd hx hi hn hl hstore hslot

/-- The four slots of RETIRE SITE, in their order (R21). -/
theorem retireSlots_progress (hs : PoolSound s) (hd : DirectoryMaps s)
    (hx : siteSlots store s.store.directory = some x) :
    ∃ (u : State) (o : Slots SlotOutcome),
      (store ≠ 0 → retireSiteBlock store s = answerDone u (.siteRetired store o)) ∧
      (∀ i, SlotTreated s x i (o.get i)) ∧ SiteProgress s store x (fun i => decide (o.get i = .retired)) u := by
  obtain ⟨t0, p0⟩ := (siteProgress_none hs hd hx).retireSlot hd hx (i := 0) rfl
  generalize ha : retireSlot s (x.get 0) = a at t0 p0
  obtain ⟨t1, p1⟩ := p0.retireSlot hd hx (i := 1) rfl
  generalize hb : retireSlot a.1 (x.get 1) = b at t1 p1
  obtain ⟨t2, p2⟩ := p1.retireSlot hd hx (i := 2) rfl
  generalize hc : retireSlot b.1 (x.get 2) = c at t2 p2
  obtain ⟨t3, p3⟩ := p2.retireSlot hd hx (i := 3) rfl
  generalize he : retireSlot c.1 (x.get 3) = e at t3 p3
  refine ⟨e.1, ⟨a.2, b.2, c.2, e.2⟩, fun h0 => ?block, fun i => ?treated, ?progress⟩
  case block =>
    subst ha hb hc he
    rw [retireSiteBlock, if_neg h0, hx]
    rfl
  case treated =>
    match i with
    | 0 => exact t0
    | 1 => exact t1
    | 2 => exact t2
    | 3 => exact t3
  case progress =>
    refine (congrArg (SiteProgress s store x · _) ?_).mp p3
    funext i
    rw [Bool.eq_iff_iff, decide_eq_true_iff]
    match i with
    | 0 | 1 | 2 | 3 => simp [goneAfter, Slots.get]

end

/-- Settles O32: the invariant after the four slots. -/
theorem retireSiteTreatsEverySlot : Obligations.RetireSiteTreatsEverySlot := by
  refine fun s store line h => ⟨fun h0 => ?malformed, fun h0 hnone => ?noLane, fun x h0 hx hs hd => ?site⟩
  case malformed => exact serve_takes_ok (h.drive line) (by rw [retireSiteBlock, if_pos h0]; rfl)
  case noLane =>
    have hnone' : siteSlots store (s.drive line).store.directory = none := hnone
    exact serve_takes_ok (h.drive line) (by rw [retireSiteBlock, if_neg h0, hnone']; rfl)
  case site =>
    have hd' : DirectoryMaps (s.drive line) := DirectorySound.maps (hd.of_eq rfl)
    obtain ⟨t, o, hblock, htreated, p⟩ := retireSlots_progress (s := s.drive line) (hs.of_eq rfl) hd' hx
    refine ⟨t, o, keptSlots (fun i => decide (o.get i = .retired)) x, serve_takes_ok (h.drive line) (hblock h0),
      fun i => ?slot, fun n l hl hstore => ?others, fun n hn => ?vacant, fun i => ?left, p.own, p.otherStores, p.siteCount,
      p.occupiedLanes, p.policies, p.lots, p.lotCount, fun hlist => ?list, p.pending, p.lines, p.ports, p.queues, p.clock,
      p.sweeps, p.status⟩
    case slot =>
      have htreat := htreated i
      unfold SlotTreated at htreat
      cases hn : x.get i with
      | none => rw [hn] at htreat; exact htreat
      | some n =>
        rw [hn] at htreat
        obtain ⟨l, hl, hout⟩ := htreat
        refine ⟨l, hl, ?_⟩
        by_cases hgate : l.locked = true ∧ line = .inactive
        · rw [if_pos ((lockGate_drive s line l).mpr hgate)] at hout
          rw [if_pos hgate]
          exact ⟨hout, (p.lane_of_slot hd' hx (by simp [hout]) hn).trans hl⟩
        · rw [if_neg (fun hg => hgate ((lockGate_drive s line l).mp hg))] at hout
          rw [if_neg hgate]
          exact ⟨hout, p.removed i n (by simp [hout]) hn⟩
    case others =>
      refine (p.kept n fun i _ hn => hstore ?_).trans hl
      obtain ⟨l', hl', hstore', -⟩ := hd'.names store x i n hx hn
      cases hl.symm.trans hl'
      exact hstore'
    case vacant =>
      by_cases hgone : ∃ i, decide (o.get i = .retired) = true ∧ x.get i = some n
      · obtain ⟨i, hi, hin⟩ := hgone
        exact p.removed i n hi hin
      · exact (p.kept n fun i hi hin => hgone ⟨i, hi, hin⟩).trans hn
    case left =>
      rw [keptSlots_get]
      exact if_congr decide_eq_true_iff rfl rfl
    case list =>
      have hattention := p.list (hlist.of_eq rfl rfl)
      rw [hattention]
      exact ⟨rfl, rfl, rfl⟩

end Sys2Proof.Machine
end

section
/-! The proofs of this family: values as bytes and bits (R186, R188): what is read at a place of bytes that were put one
after the other, and that a value reads back from its own bytes. -/
namespace Sys2Proof.Machine

/-! ### Bits -/

theorem testBit_bitsNat (bs : List Bool) (i : Nat) : (bitsNat bs).testBit i = bs.getD i false := by
  induction bs generalizing i with
  | nil => simp [bitsNat]
  | cons b bs ih =>
    cases i with
    | zero =>
      rw [bitsNat, Nat.testBit_zero, List.getD_cons_zero]
      cases b <;> simp
    | succ i =>
      have hhalf : (b.toNat + 2 * bitsNat bs) / 2 = bitsNat bs := by
        have := Bool.toNat_lt b
        omega
      rw [bitsNat, Nat.testBit_succ, hhalf, ih, List.getD_cons_succ]

theorem bitsNat_lt (bs : List Bool) : bitsNat bs < 2 ^ bs.length := by
  induction bs with
  | nil => decide
  | cons b bs ih =>
    have := Bool.toNat_lt b
    rw [bitsNat, List.length_cons, Nat.pow_succ]
    omega

/-- A number of few bits is the number of its bits. -/
theorem bitsNat_map_testBit (n k : Nat) (h : n < 2 ^ k) : bitsNat ((List.range k).map n.testBit) = n := by
  refine Nat.eq_of_testBit_eq fun i => ?_
  rw [testBit_bitsNat]
  by_cases hi : i < k
  · rw [List.getD_eq_getElem _ _ (by simpa using hi)]
    simp
  · rw [List.getD_eq_default _ _ (by simpa using Nat.le_of_not_lt hi)]
    exact (Nat.testBit_eq_false_of_lt (h.trans_le (Nat.pow_le_pow_right (by decide) (Nat.le_of_not_lt hi)))).symm

theorem causesNat_lt (m : Causes) : causesNat m < 256 := (bitsNat_lt _).trans (show 2 ^ 7 < 256 by decide)

theorem weekdaysNat_lt (m : Weekdays) : weekdaysNat m < 256 := (bitsNat_lt _).trans (show 2 ^ 7 < 256 by decide)

@[simp] theorem causesOf_causesNat (m : Causes) : causesOf (causesNat m) = m := by
  simp only [causesOf, causesNat, testBit_bitsNat]
  rfl

@[simp] theorem weekdaysOf_weekdaysNat (m : Weekdays) : weekdaysOf (weekdaysNat m) = m := by
  simp only [weekdaysOf, weekdaysNat, testBit_bitsNat]
  rfl

/-! ### The lengths of the parts -/

@[simp] theorem length_byte1 (n : Nat) : (byte1 n).length = 1 := rfl
@[simp] theorem length_byte2 (n : Nat) : (byte2 n).length = 2 := rfl
@[simp] theorem length_byte3 (n : Nat) : (byte3 n).length = 3 := rfl
@[simp] theorem length_signed1 (i : Int) : (signed1 i).length = 1 := rfl
@[simp] theorem length_signed2 (i : Int) : (signed2 i).length = 2 := rfl
@[simp] theorem length_flag (b : Bool) : (flag b).length = 1 := rfl
@[simp] theorem length_toList {α : Type} (x : Points α) : x.toList.length = 12 := rfl

theorem length_flatMap_of_const {α : Type} {f : α → List Byte} {k : Nat} (hf : ∀ a, (f a).length = k) (xs : List α) :
    (xs.flatMap f).length = xs.length * k := by
  simp [List.length_flatMap, hf]


/-! ### What is read is in range -/

theorem read1_lt (bs : List Byte) (i : Nat) : read1 bs i < 256 := (bs.getD i 0).isLt

theorem read2_lt (bs : List Byte) (i : Nat) : read2 bs i < 65536 := by
  have := read1_lt bs i
  have := read1_lt bs (i + 1)
  rw [read2]
  omega

theorem read3_lt (bs : List Byte) (i : Nat) : read3 bs i < 16777216 := by
  have := read2_lt bs i
  have := read1_lt bs (i + 2)
  rw [read3]
  omega

/-! ### A value reads back from its own bytes -/

theorem read1_byte1 {n : Nat} (h : n < 256) : read1 (byte1 n) 0 = n := by
  show n % 2 ^ 8 = n
  omega

theorem read2_byte2 {n : Nat} (h : n < 65536) : read2 (byte2 n) 0 = n := by
  show 256 * (n / 256 % 2 ^ 8) + n % 2 ^ 8 = n
  omega

theorem read3_byte3 {n : Nat} (h : n < 16777216) : read3 (byte3 n) 0 = n := by
  show 256 * (256 * (n / 65536 % 2 ^ 8) + n / 256 % 2 ^ 8) + n % 2 ^ 8 = n
  omega

theorem readSigned1_signed1 {d : Int} (h1 : -128 ≤ d) (h2 : d < 128) : readSigned1 (signed1 d) 0 = d := by
  rw [readSigned1, signed1, read1_byte1 (by omega)]
  split <;> omega

theorem readSigned2_signed2 {d : Int} (h1 : -32768 ≤ d) (h2 : d < 32768) : readSigned2 (signed2 d) 0 = d := by
  rw [readSigned2, signed2, read2_byte2 (by omega)]
  split <;> omega

@[simp] theorem read1_flag (b : Bool) : read1 (flag b) 0 = b.toNat := by
  cases b <;> rfl

/-! ### Twelve values, one per point -/

theorem pointIndex_lt (p : Point) : pointIndex p < 12 := by
  obtain ⟨c, q⟩ := p
  cases c <;> cases q <;> decide

theorem toList_getElem? {α : Type} (x : Points α) (p : Point) : x.toList[pointIndex p]? = some (x.pick p) := by
  obtain ⟨c, q⟩ := p
  cases c <;> cases q <;> rfl

/-! ### Parts at their places -/

/-- `part` stands at place `i` of the bytes `bs`. -/
def StandsAt (bs : List Byte) (i : Nat) (part : List Byte) : Prop := part <+: bs.drop i

theorem standsAt_zero (part after : List Byte) : StandsAt (part ++ after) 0 part := List.prefix_append part after

theorem standsAt_zero_self (part : List Byte) : StandsAt part 0 part := List.prefix_refl part

/-- Parts put one after the other: each stands behind the lengths of those before it. -/
theorem standsAt_flatten {parts : List (List Byte)} {lengths : List Nat} (hlengths : parts.map List.length = lengths)
    {k : Nat} {part : List Byte} (hpart : parts[k]? = some part) : StandsAt parts.flatten (lengths.take k).sum part := by
  induction parts generalizing k lengths with
  | nil => cases hpart
  | cons first parts ih =>
    subst hlengths
    cases k with
    | zero =>
      obtain rfl : first = part := Option.some.inj hpart
      exact standsAt_zero first _
    | succ k =>
      have := ih rfl (k := k) (by simpa using hpart)
      rw [StandsAt, List.flatten_cons, List.map_cons, List.take_succ_cons, List.sum_cons, List.drop_length_add_append]
      exact this

/-- Parts of one length `n`: the one of the value at place `i` stands at place `n * i`. -/
theorem standsAt_flatMap {α : Type} {f : α → List Byte} {n : Nat} (hf : ∀ a, (f a).length = n) {xs : List α} {i : Nat}
    {x : α} (hx : xs[i]? = some x) : StandsAt (xs.flatMap f) (n * i) (f x) := by
  have hi : i < xs.length := (List.getElem?_eq_some_iff.mp hx).1
  have hlengths : (xs.map f).map List.length = List.replicate xs.length n := by simp [hf, Function.comp_def]
  have := standsAt_flatten hlengths (k := i) (part := f x) (by simp [hx])
  rwa [List.take_replicate, List.sum_replicate, min_eq_left hi.le, smul_eq_mul, Nat.mul_comm, ← List.flatMap_def] at this

namespace StandsAt
variable {bs mid part : List Byte} {i j : Nat}

theorem trans (h : StandsAt bs i mid) (h' : StandsAt mid j part) : StandsAt bs (i + j) part := by
  rw [StandsAt, ← List.drop_drop]
  exact List.IsPrefix.trans h' (List.IsPrefix.drop h j)

theorem drop_take (h : StandsAt bs i part) : (bs.drop i).take part.length = part :=
  (List.prefix_iff_eq_take.mp h).symm

theorem read1_eq (h : StandsAt bs i part) (hj : j < part.length) : Machine.read1 bs (i + j) = Machine.read1 part j := by
  have := List.prefix_iff_getElem?.mp h j hj
  rw [List.getElem?_drop] at this
  rw [Machine.read1, Machine.read1, List.getD_eq_getElem?_getD, List.getD_eq_getElem?_getD, this,
    List.getElem?_eq_getElem hj]

theorem read2_eq (h : StandsAt bs i part) (hj : j + 1 < part.length) : Machine.read2 bs (i + j) = Machine.read2 part j := by
  rw [Machine.read2, Machine.read2, Nat.add_assoc, h.read1_eq (by omega), h.read1_eq hj]

theorem byte1 {n : Nat} (h : StandsAt bs i (byte1 n)) (hn : n < 256) : read1 bs i = n :=
  (h.read1_eq (j := 0) (by simp)).trans (read1_byte1 hn)

theorem flag {b : Bool} (h : StandsAt bs i (flag b)) : read1 bs i = b.toNat :=
  (h.read1_eq (j := 0) (by simp)).trans (read1_flag b)

theorem byte2 {n : Nat} (h : StandsAt bs i (byte2 n)) (hn : n < 65536) : read2 bs i = n :=
  (h.read2_eq (j := 0) (by simp)).trans (read2_byte2 hn)

theorem byte3 {n : Nat} (h : StandsAt bs i (byte3 n)) (hn : n < 16777216) : read3 bs i = n := by
  rw [read3, show read2 bs i = _ from h.read2_eq (j := 0) (by simp), h.read1_eq (j := 2) (by simp)]
  exact read3_byte3 hn

theorem signed1 {d : Int} (h : StandsAt bs i (signed1 d)) (h1 : -128 ≤ d) (h2 : d < 128) : readSigned1 bs i = d := by
  rw [readSigned1, show read1 bs i = _ from h.read1_eq (j := 0) (by simp)]
  exact readSigned1_signed1 h1 h2

theorem signed2 {d : Int} (h : StandsAt bs i (signed2 d)) (h1 : -32768 ≤ d) (h2 : d < 32768) : readSigned2 bs i = d := by
  rw [readSigned2, show read2 bs i = _ from h.read2_eq (j := 0) (by simp)]
  exact readSigned2_signed2 h1 h2

theorem bits {xs : List Bool} (h : StandsAt bs i (Machine.byte1 (bitsNat xs))) (hxs : xs.length ≤ 8) (k : Nat) :
    (read1 bs i).testBit k = xs.getD k false := by
  rw [h.byte1 ((bitsNat_lt xs).trans_le (Nat.pow_le_pow_right (n := 2) (by decide) hxs)), testBit_bitsNat]

theorem bits2 {xs : List Bool} (h : StandsAt bs i (Machine.byte2 (bitsNat xs))) (hxs : xs.length ≤ 16) (k : Nat) :
    (read2 bs i).testBit k = xs.getD k false := by
  rw [h.byte2 ((bitsNat_lt xs).trans_le (Nat.pow_le_pow_right (n := 2) (by decide) hxs)), testBit_bitsNat]

theorem pointBits {x : Points Bool} (h : StandsAt bs i (pointBits x)) (p : Point) :
    (read2 bs i).testBit (pointIndex p) = x.pick p := by
  rw [StandsAt.bits2 (xs := x.toList) h (show 12 ≤ 16 by decide), List.getD_eq_getElem?_getD, toList_getElem?]
  rfl

theorem causes {m : Causes} (h : StandsAt bs i (Machine.byte1 (causesNat m))) : causesOf (read1 bs i) = m := by
  rw [h.byte1 (causesNat_lt m), causesOf_causesNat]

theorem weekdays {m : Weekdays} (h : StandsAt bs i (Machine.byte1 (weekdaysNat m))) : weekdaysOf (read1 bs i) = m := by
  rw [h.byte1 (weekdaysNat_lt m), weekdaysOf_weekdaysNat]

/-- Of twelve values, one per point, sent in parts of one length, the part of one point. -/
theorem point {α : Type} {f : α → List Byte} {n : Nat} {x : Points α} (h : StandsAt bs i (x.toList.flatMap f))
    (hf : ∀ a, (f a).length = n) (p : Point) : StandsAt bs (i + n * pointIndex p) (f (x.pick p)) :=
  h.trans (standsAt_flatMap hf (toList_getElem? x p))

end StandsAt

end Sys2Proof.Machine
end

section
/-! The proofs of this family: the records of Tables 11-3 and 11-6 to 11-8 part by part, and the field at each place
of them (O8). -/
namespace Sys2Proof.Machine

/-! ### The policy body (Table 11-3) -/

/-- The limits of one point in a policy body. -/
def limitsBytes (l : Limits) : List Byte :=
  signed2 l.actionLow ++ signed2 l.warnLow ++ signed2 l.warnHigh ++ signed2 l.actionHigh

theorem length_limitsBytes (l : Limits) : (limitsBytes l).length = 8 := rfl

theorem limitsBytes_standsAt (l : Limits) {k : Nat} {part : List Byte}
    (h : [signed2 l.actionLow, signed2 l.warnLow, signed2 l.warnHigh, signed2 l.actionHigh][k]? = some part) :
    StandsAt (limitsBytes l) (([2, 2, 2, 2] : List Nat).take k).sum part := by
  have := standsAt_flatten (lengths := [2, 2, 2, 2]) rfl h
  simpa [limitsBytes] using this

/-- The parts of a policy body, in the order of the table. -/
def policyParts (p : Policy) : List (List Byte) :=
  [pointBits p.used, p.limits.toList.flatMap limitsBytes, p.driftThreshold.toList.flatMap byte2, byte1 p.filterShift,
    byte1 p.deadband, byte1 p.runLength, byte1 p.settleCount, byte1 p.clearCount, byte1 p.overdueLimit,
    byte1 (causesNat p.noticeMask)]

theorem policyBytes_eq (p : Policy) : policyBytes p = (policyParts p).flatten := by
  simp only [policyBytes, policyParts, List.append_assoc, List.flatten_cons, List.flatten_nil, List.append_nil]
  rfl

theorem policyParts_lengths (p : Policy) : (policyParts p).map List.length = [2, 96, 24, 1, 1, 1, 1, 1, 1, 1] := by
  simp only [policyParts, List.map_cons, List.map_nil, length_flatMap_of_const length_limitsBytes,
    length_flatMap_of_const length_byte2, length_toList]
  rfl

@[simp] theorem length_policyBytes (p : Policy) : (policyBytes p).length = 129 := by
  rw [policyBytes_eq, List.length_flatten, policyParts_lengths]
  rfl

theorem policyBytes_standsAt (p : Policy) {k : Nat} {part : List Byte} (h : (policyParts p)[k]? = some part) :
    StandsAt (policyBytes p) (([2, 96, 24, 1, 1, 1, 1, 1, 1, 1] : List Nat).take k).sum part :=
  policyBytes_eq p ▸ standsAt_flatten (policyParts_lengths p) h

theorem policyBytes_limitsAt (p : Policy) (q : Point) :
    StandsAt (policyBytes p) (2 + 8 * pointIndex q) (limitsBytes (p.limits.pick q)) :=
  StandsAt.point (policyBytes_standsAt p (k := 1) rfl) length_limitsBytes q

theorem policyBytes_places (p : Policy) (h : PolicyInRange p) :
    (∀ q, (read2 (policyBytes p) 0).testBit (pointIndex q) = p.used.pick q ∧
      readSigned2 (policyBytes p) (2 + 8 * pointIndex q) = (p.limits.pick q).actionLow ∧
      readSigned2 (policyBytes p) (4 + 8 * pointIndex q) = (p.limits.pick q).warnLow ∧
      readSigned2 (policyBytes p) (6 + 8 * pointIndex q) = (p.limits.pick q).warnHigh ∧
      readSigned2 (policyBytes p) (8 + 8 * pointIndex q) = (p.limits.pick q).actionHigh ∧
      read2 (policyBytes p) (98 + 2 * pointIndex q) = p.driftThreshold.pick q) ∧
    read1 (policyBytes p) 122 = p.filterShift ∧ read1 (policyBytes p) 123 = p.deadband ∧
    read1 (policyBytes p) 124 = p.runLength ∧ read1 (policyBytes p) 125 = p.settleCount ∧
    read1 (policyBytes p) 126 = p.clearCount ∧ read1 (policyBytes p) 127 = p.overdueLimit ∧
    causesOf (read1 (policyBytes p) 128) = p.noticeMask := by
  have hat := @policyBytes_standsAt p
  obtain ⟨hlimits, hthreshold, hshift, hdeadband, hrun, hsettle, hclear, hoverdue, -⟩ := h
  refine ⟨fun q => ?_, (hat (k := 3) rfl).byte1 (by omega), (hat (k := 4) rfl).byte1 (by omega),
    (hat (k := 5) rfl).byte1 (by omega), (hat (k := 6) rfl).byte1 (by omega), (hat (k := 7) rfl).byte1 (by omega),
    (hat (k := 8) rfl).byte1 (by omega), (hat (k := 9) rfl).causes⟩
  have hq := policyBytes_limitsAt p q
  have hl := @limitsBytes_standsAt (p.limits.pick q)
  have := hlimits q
  have hplace (j : Nat) : 2 + 8 * pointIndex q + j = 2 + j + 8 * pointIndex q := by omega
  refine ⟨(hat (k := 0) rfl).pointBits q, (hq.trans (hl (k := 0) rfl)).signed2 (by omega) (by omega), ?_, ?_, ?_,
    ((hat (k := 2) rfl).point length_byte2 q).byte2 (by have := hthreshold q; omega)⟩
  · exact hplace 2 ▸ (hq.trans (hl (k := 1) rfl)).signed2 (by omega) (by omega)
  · exact hplace 4 ▸ (hq.trans (hl (k := 2) rfl)).signed2 (by omega) (by omega)
  · exact hplace 6 ▸ (hq.trans (hl (k := 3) rfl)).signed2 (by omega) (by omega)

/-! ### The verdict (Table 11-6) -/

/-- The parts of a point entry. -/
def entryParts (e : Point × PointResult) : List (List Byte) :=
  [byte1 (pointIndex e.1), byte1 e.2.zone.code, signed2 e.2.deviation, signed2 e.2.trend, signed1 e.2.runCount,
    byte1 (bitsNat [e.2.gross, e.2.clipped])]

theorem length_entryBytes (e : Point × PointResult) : (entryBytes e).length = 8 := rfl

theorem entryBytes_standsAt (e : Point × PointResult) {k : Nat} {part : List Byte} (h : (entryParts e)[k]? = some part) :
    StandsAt (entryBytes e) (([1, 1, 2, 2, 1, 1] : List Nat).take k).sum part :=
  standsAt_flatten (parts := entryParts e) rfl h

theorem Zone.code_lt (z : Zone) : z.code < 256 := by cases z <;> decide
theorem ReadingOutcome.code_lt (o : ReadingOutcome) : o.code < 256 := by cases o <;> decide
theorem LaneState.code_lt (st : LaneState) : st.code < 256 := by cases st <;> decide
theorem Crossover.code_lt (x : Crossover) : x.code < 256 := by cases x <;> decide
theorem Reason.code_lt (r : Reason) : r.code < 256 := by cases r <;> decide
theorem LotCase.code_lt (c : LotCase) : c.code < 256 := by cases c <;> decide

/-- The byte of a verdict's kind: 0, or the reason of a refusal. -/
def VerdictBody.kind : VerdictBody → Nat
  | .refused reason => reason.code
  | .evaluated _ _ _ _ => 0

/-- The parts behind the patch flags, of an evaluated report only. -/
def VerdictBody.tail : VerdictBody → List Byte
  | .refused _ => []
  | .evaluated outcome after crossover entries =>
    byte1 outcome.code ++ byte1 after.code ++ byte1 crossover.code ++ byte1 entries.length ++
      entries.flatMap entryBytes

/-- The parts of a verdict record. -/
def verdictParts (v : Verdict) : List (List Byte) :=
  [byte1 (v.ticket.getD 0), byte1 (bitsNat [v.lane.isSome, v.ticket.isSome]), byte2 v.store, byte1 v.slot,
    byte2 (v.lane.getD 0), byte1 v.body.kind, patchBits v.clipped, v.body.tail]

theorem verdictBytes_eq (v : Verdict) : verdictBytes v = (verdictParts v).flatten := by
  obtain ⟨ticket, store, slot, lane, clipped, body⟩ := v
  cases body <;> simp [verdictBytes, verdictParts, VerdictBody.kind, VerdictBody.tail]

theorem verdictParts_lengths (v : Verdict) :
    (verdictParts v).map List.length = [1, 1, 2, 1, 2, 1, 2, v.body.tail.length] := rfl

theorem length_verdictBytes (v : Verdict) : (verdictBytes v).length = 10 + v.body.tail.length := by
  rw [verdictBytes_eq, List.length_flatten, verdictParts_lengths]
  simp only [List.sum_cons, List.sum_nil]
  omega

theorem length_evaluated_tail (o : ReadingOutcome) (after : LaneState) (x : Crossover)
    (entries : List (Point × PointResult)) :
    (VerdictBody.evaluated o after x entries).tail.length = 4 + 8 * entries.length := by
  rw [VerdictBody.tail, List.length_append, length_flatMap_of_const length_entryBytes, Nat.mul_comm]
  rfl

theorem verdictBytes_standsAt (v : Verdict) {k : Nat} {part : List Byte} (h : (verdictParts v)[k]? = some part) :
    StandsAt (verdictBytes v) (([1, 1, 2, 1, 2, 1, 2, v.body.tail.length] : List Nat).take k).sum part :=
  verdictBytes_eq v ▸ standsAt_flatten (verdictParts_lengths v) h

/-- The parts an evaluated report's verdict has behind those of every verdict. -/
theorem verdictBytes_tail_standsAt {v : Verdict} {o : ReadingOutcome} {after : LaneState} {x : Crossover}
    {entries : List (Point × PointResult)} (hv : v.body = .evaluated o after x entries) {k : Nat} {part : List Byte}
    (h : [byte1 o.code, byte1 after.code, byte1 x.code, byte1 entries.length, entries.flatMap entryBytes][k]? =
      some part) :
    StandsAt (verdictBytes v) (10 + (([1, 1, 1, 1, (entries.flatMap entryBytes).length] : List Nat).take k).sum) part := by
  refine StandsAt.trans (verdictBytes_standsAt v (k := 7) rfl) ?_
  have := standsAt_flatten (lengths := [1, 1, 1, 1, (entries.flatMap entryBytes).length]) rfl h
  simpa [hv, VerdictBody.tail] using this

theorem entry_places {bs : List Byte} {i : Nat} {e : Point × PointResult} (h : StandsAt bs i (entryBytes e))
    (hd1 : -1000 ≤ e.2.deviation) (hd2 : e.2.deviation ≤ 1000) (ht1 : -16000 ≤ e.2.trend) (ht2 : e.2.trend ≤ 16000)
    (hr1 : -15 ≤ e.2.runCount) (hr2 : e.2.runCount ≤ 15) :
    read1 bs i = pointIndex e.1 ∧ read1 bs (i + 1) = e.2.zone.code ∧ readSigned2 bs (i + 2) = e.2.deviation ∧
      readSigned2 bs (i + 4) = e.2.trend ∧ readSigned1 bs (i + 6) = e.2.runCount ∧
      (read1 bs (i + 7)).testBit 0 = e.2.gross ∧ (read1 bs (i + 7)).testBit 1 = e.2.clipped := by
  have hat {k : Nat} {part : List Byte} (hk : (entryParts e)[k]? = some part) := h.trans (entryBytes_standsAt _ hk)
  have := pointIndex_lt e.1
  exact ⟨(hat (k := 0) rfl).byte1 (by omega), (hat (k := 1) rfl).byte1 (Zone.code_lt _),
    (hat (k := 2) rfl).signed2 (by omega) (by omega), (hat (k := 3) rfl).signed2 (by omega) (by omega),
    (hat (k := 4) rfl).signed1 (by omega) (by omega), (hat (k := 5) rfl).bits (by simp) 0,
    (hat (k := 5) rfl).bits (by simp) 1⟩

theorem verdictBytes_places (v : Verdict) (hticket : ∀ ticket, v.ticket = some ticket → ticket < 256)
    (hstore : v.store < 65536) (hslot : v.slot < 256) (hlane : ∀ n, v.lane = some n → n < 65536) :
    read1 (verdictBytes v) 0 = v.ticket.getD 0 ∧ (read1 (verdictBytes v) 1).testBit 0 = v.lane.isSome ∧
    (read1 (verdictBytes v) 1).testBit 1 = v.ticket.isSome ∧ read2 (verdictBytes v) 2 = v.store ∧
    read1 (verdictBytes v) 4 = v.slot ∧ read2 (verdictBytes v) 5 = v.lane.getD 0 ∧
    (∀ i, i < 12 → (read2 (verdictBytes v) 8).testBit i = v.clipped.toList.getD i false) ∧
    read1 (verdictBytes v) 7 = v.body.kind := by
  have hat := @verdictBytes_standsAt v
  have hticket' : v.ticket.getD 0 < 256 := by cases h : v.ticket <;> simp [hticket _, h]
  have hlane' : v.lane.getD 0 < 65536 := by cases h : v.lane <;> simp [hlane _, h]
  have hkind : v.body.kind < 256 := by cases v.body <;> simp [VerdictBody.kind, Reason.code_lt]
  exact ⟨(hat (k := 0) rfl).byte1 hticket', (hat (k := 1) rfl).bits (by simp) 0, (hat (k := 1) rfl).bits (by simp) 1,
    (hat (k := 2) rfl).byte2 hstore, (hat (k := 3) rfl).byte1 hslot, (hat (k := 4) rfl).byte2 hlane',
    fun i _ => (hat (k := 6) rfl).bits2 (show 12 ≤ 16 by decide) i, (hat (k := 5) rfl).byte1 hkind⟩

theorem verdictBytes_evaluated_places {v : Verdict} {o : ReadingOutcome} {after : LaneState} {x : Crossover}
    {entries : List (Point × PointResult)} (hv : v.body = .evaluated o after x entries) (hlength : entries.length ≤ 12) :
    read1 (verdictBytes v) 10 = o.code ∧ read1 (verdictBytes v) 11 = after.code ∧
    read1 (verdictBytes v) 12 = x.code ∧ read1 (verdictBytes v) 13 = entries.length ∧
    ∀ i e, entries[i]? = some e → StandsAt (verdictBytes v) (14 + 8 * i) (entryBytes e) := by
  have hat {k : Nat} {part : List Byte} := @verdictBytes_tail_standsAt v o after x entries hv k part
  exact ⟨(hat (k := 0) rfl).byte1 (ReadingOutcome.code_lt _), (hat (k := 1) rfl).byte1 (LaneState.code_lt _),
    (hat (k := 2) rfl).byte1 (Crossover.code_lt _), (hat (k := 3) rfl).byte1 (by omega),
    fun i e hi => (hat (k := 4) rfl).trans (standsAt_flatMap length_entryBytes hi)⟩

/-! ### The lane record (Table 11-7) -/

/-- The parts of eight counters. -/
def counterParts (c : Counters) : List (List Byte) :=
  [byte2 c.readings, byte1 c.warns, byte1 c.driftEntries, byte1 c.actionEntries, byte1 c.reruns, byte1 c.refusals,
    byte1 c.overdueRaises, byte1 c.crossovers]

theorem counterBytes_standsAt (c : Counters) {k : Nat} {part : List Byte} (h : (counterParts c)[k]? = some part) :
    StandsAt (counterBytes c) (([2, 1, 1, 1, 1, 1, 1, 1] : List Nat).take k).sum part :=
  standsAt_flatten (parts := counterParts c) rfl h

theorem counter_places {bs : List Byte} {i : Nat} {c : Counters} (h : StandsAt bs i (counterBytes c))
    (hc : CountersInRange c) :
    read2 bs i = c.readings ∧ read1 bs (i + 2) = c.warns ∧ read1 bs (i + 3) = c.driftEntries ∧
      read1 bs (i + 4) = c.actionEntries ∧ read1 bs (i + 5) = c.reruns ∧ read1 bs (i + 6) = c.refusals ∧
      read1 bs (i + 7) = c.overdueRaises ∧ read1 bs (i + 8) = c.crossovers := by
  have hat {k : Nat} {part : List Byte} (hk : (counterParts c)[k]? = some part) := h.trans (counterBytes_standsAt c hk)
  obtain ⟨h0, h1, h2, h3, h4, h5, h6, h7⟩ := hc
  exact ⟨(hat (k := 0) rfl).byte2 (by omega), (hat (k := 1) rfl).byte1 (by omega), (hat (k := 2) rfl).byte1 (by omega),
    (hat (k := 3) rfl).byte1 (by omega), (hat (k := 4) rfl).byte1 (by omega), (hat (k := 5) rfl).byte1 (by omega),
    (hat (k := 6) rfl).byte1 (by omega), (hat (k := 7) rfl).byte1 (by omega)⟩

theorem length_deviationBytes (d : Option Int) : (deviationBytes d).length = 2 := by cases d <;> rfl

/-- The parts of a lane record. -/
def laneParts (number : Nat) (l : Lane) : List (List Byte) :=
  [byte2 number, byte2 l.store, byte1 l.slot, byte1 l.type, byte1 l.state.code, byte1 l.settleProgress,
    byte1 l.cleanProgress, byte3 l.activeLot, byte3 (l.pendingLot.getD 0), l.offsets.toList.flatMap signed2,
    l.trend.toList.flatMap (fun t => signed2 t.value), pointBits (Points.ofFn fun p => (l.trend.pick p).seeded),
    l.runCount.toList.flatMap signed1, l.lastDeviation.toList.flatMap deviationBytes, byte2 l.createdDay,
    byte2 (l.lastDay.getD 0), flag l.lastDay.isSome, byte1 l.rerunsToday, byte1 (weekdaysNat l.restMask),
    byte1 l.marks, byte1 (causesNat l.causes), flag l.joined.isSome, counterBytes l.counters, counterBytes l.summary,
    byte2 l.periodTag]

/-- The lengths of the parts of a lane record. -/
def laneLengths : List Nat := [2, 2, 1, 1, 1, 1, 1, 3, 3, 24, 24, 2, 12, 24, 2, 2, 1, 1, 1, 1, 1, 1, 9, 9, 2]

theorem laneBytes_eq (n : Nat) (l : Lane) : laneBytes n l = (laneParts n l).flatten := by
  unfold laneBytes laneParts
  simp only [List.flatten_cons, List.flatten_nil]
  simp only [List.append_assoc, List.append_nil]

theorem laneParts_lengths (n : Nat) (l : Lane) : (laneParts n l).map List.length = laneLengths := by
  simp only [laneParts, List.map_cons, List.map_nil, length_flatMap_of_const length_signed2,
    length_flatMap_of_const length_signed1, length_flatMap_of_const length_deviationBytes,
    length_flatMap_of_const (fun t : Trend => length_signed2 t.value), length_toList]
  rfl

theorem length_laneBytes (n : Nat) (l : Lane) : (laneBytes n l).length = 131 := by
  rw [laneBytes_eq, List.length_flatten, laneParts_lengths]
  rfl

theorem laneBytes_standsAt (n : Nat) (l : Lane) {k : Nat} {part : List Byte} (h : (laneParts n l)[k]? = some part) :
    StandsAt (laneBytes n l) (laneLengths.take k).sum part :=
  laneBytes_eq n l ▸ standsAt_flatten (laneParts_lengths n l) h

theorem laneBytes_point_places (n : Nat) {l : Lane} (hl : LaneInRange l) (p : Point) :
    readSigned2 (laneBytes n l) (15 + 2 * pointIndex p) = l.offsets.pick p ∧
      readSigned2 (laneBytes n l) (39 + 2 * pointIndex p) = (l.trend.pick p).value ∧
      (read2 (laneBytes n l) 63).testBit (pointIndex p) = (l.trend.pick p).seeded ∧
      readSigned1 (laneBytes n l) (65 + pointIndex p) = l.runCount.pick p ∧
      (∀ d, l.lastDeviation.pick p = some d → readSigned2 (laneBytes n l) (77 + 2 * pointIndex p) = d) ∧
      (l.lastDeviation.pick p = none → read2 (laneBytes n l) (77 + 2 * pointIndex p) = 0x8000) := by
  have hat := @laneBytes_standsAt n l
  have hoffset := hl.offsets p
  have htrend := hl.trend p
  have hrun := hl.runCount p
  have hdeviation := (hat (k := 13) rfl).point length_deviationBytes p
  refine ⟨((hat (k := 9) rfl).point length_signed2 p).signed2 (by omega) (by omega),
    ((hat (k := 10) rfl).point (fun t => length_signed2 t.value) p).signed2 (by omega) (by omega), ?_, ?_, ?_, ?_⟩
  · exact ((hat (k := 11) rfl).pointBits p).trans (pick_ofFn _ p)
  · have := ((hat (k := 12) rfl).point length_signed1 p).signed1 (by omega) (by omega)
    rwa [Nat.one_mul] at this
  · intro d hd
    rw [hd] at hdeviation
    have := hl.lastDeviation p d hd
    exact StandsAt.signed2 hdeviation (by omega) (by omega)
  · intro hd
    rw [hd] at hdeviation
    exact StandsAt.byte2 hdeviation (by decide)

theorem laneBytes_places (n : Nat) (l : Lane) (hn : n < 1536) (hl : LaneInRange l) (hactive : l.activeLot < 16777216)
    (hpending : ∀ lot, l.pendingLot = some lot → lot < 16777216) :
    read2 (laneBytes n l) 0 = n ∧ read2 (laneBytes n l) 2 = l.store ∧ read1 (laneBytes n l) 4 = l.slot ∧
    read1 (laneBytes n l) 5 = l.type ∧ read1 (laneBytes n l) 6 = l.state.code ∧
    read1 (laneBytes n l) 7 = l.settleProgress ∧ read1 (laneBytes n l) 8 = l.cleanProgress ∧
    read3 (laneBytes n l) 9 = l.activeLot ∧ read3 (laneBytes n l) 12 = l.pendingLot.getD 0 ∧
    (∀ p, readSigned2 (laneBytes n l) (15 + 2 * pointIndex p) = l.offsets.pick p ∧
      readSigned2 (laneBytes n l) (39 + 2 * pointIndex p) = (l.trend.pick p).value ∧
      (read2 (laneBytes n l) 63).testBit (pointIndex p) = (l.trend.pick p).seeded ∧
      readSigned1 (laneBytes n l) (65 + pointIndex p) = l.runCount.pick p ∧
      (∀ d, l.lastDeviation.pick p = some d → readSigned2 (laneBytes n l) (77 + 2 * pointIndex p) = d) ∧
      (l.lastDeviation.pick p = none → read2 (laneBytes n l) (77 + 2 * pointIndex p) = 0x8000)) ∧
    read2 (laneBytes n l) 101 = l.createdDay ∧ read2 (laneBytes n l) 103 = l.lastDay.getD 0 ∧
    read1 (laneBytes n l) 105 = l.lastDay.isSome.toNat ∧ read1 (laneBytes n l) 106 = l.rerunsToday ∧
    weekdaysOf (read1 (laneBytes n l) 107) = l.restMask ∧ (read1 (laneBytes n l) 108).testBit 0 = l.locked ∧
    (read1 (laneBytes n l) 108).testBit 1 = l.autoCross ∧ (read1 (laneBytes n l) 108).testBit 2 = l.autoClear ∧
    (read1 (laneBytes n l) 108).testBit 3 = l.overdue ∧ causesOf (read1 (laneBytes n l) 109) = l.causes ∧
    read1 (laneBytes n l) 110 = l.joined.isSome.toNat ∧
    (∀ e ∈ [(111, l.counters), (120, l.summary)],
      read2 (laneBytes n l) e.1 = e.2.readings ∧ read1 (laneBytes n l) (e.1 + 2) = e.2.warns ∧
      read1 (laneBytes n l) (e.1 + 3) = e.2.driftEntries ∧ read1 (laneBytes n l) (e.1 + 4) = e.2.actionEntries ∧
      read1 (laneBytes n l) (e.1 + 5) = e.2.reruns ∧ read1 (laneBytes n l) (e.1 + 6) = e.2.refusals ∧
      read1 (laneBytes n l) (e.1 + 7) = e.2.overdueRaises ∧ read1 (laneBytes n l) (e.1 + 8) = e.2.crossovers) ∧
    read2 (laneBytes n l) 129 = l.periodTag := by
  have hat := @laneBytes_standsAt n l
  have hstore := hl.store
  have hsettle := hl.settle
  have hclean := hl.clean
  have hcreated := hl.created
  have hreruns := hl.reruns
  have htag := hl.tag
  have hslot := l.slot.isLt
  have htype := l.type.isLt
  have hpending' : l.pendingLot.getD 0 < 16777216 := by cases h : l.pendingLot <;> simp [hpending _, h]
  have hlast : l.lastDay.getD 0 < 65536 := by
    cases h : l.lastDay with
    | none => decide
    | some d => exact Nat.lt_succ_of_le (hl.lastDay d h).2
  have hmarks := (hat (k := 19) rfl).bits (by simp)
  refine ⟨(hat (k := 0) rfl).byte2 (by omega), (hat (k := 1) rfl).byte2 (by omega), (hat (k := 2) rfl).byte1 (by omega),
    (hat (k := 3) rfl).byte1 (by omega), (hat (k := 4) rfl).byte1 (LaneState.code_lt _),
    (hat (k := 5) rfl).byte1 (by omega), (hat (k := 6) rfl).byte1 (by omega), (hat (k := 7) rfl).byte3 hactive,
    (hat (k := 8) rfl).byte3 hpending', laneBytes_point_places n hl, (hat (k := 14) rfl).byte2 (by omega),
    (hat (k := 15) rfl).byte2 hlast, (hat (k := 16) rfl).flag, (hat (k := 17) rfl).byte1 (by omega),
    (hat (k := 18) rfl).weekdays, hmarks 0, hmarks 1, hmarks 2, hmarks 3, (hat (k := 20) rfl).causes,
    (hat (k := 21) rfl).flag, ?_, (hat (k := 24) rfl).byte2 (by omega)⟩
  intro e he
  obtain rfl | rfl : e = (111, l.counters) ∨ e = (120, l.summary) := by simpa using he
  · exact counter_places (hat (k := 22) rfl) hl.counters
  · exact counter_places (hat (k := 23) rfl) hl.summary

/-! ### The notice (Table 11-8) -/

/-- The parts of a notice record. -/
def noticeParts (n : Notice) : List (List Byte) :=
  [byte2 n.lane, byte2 n.store, byte1 n.slot, byte1 (causesNat n.causes), byte1 n.state.code,
    byte1 (marksNat n.locked n.autoCross n.autoClear n.overdue), byte2 n.stamp.day, byte2 n.stamp.minute]

theorem noticeBytes_standsAt (n : Notice) {k : Nat} {part : List Byte} (h : (noticeParts n)[k]? = some part) :
    StandsAt (noticeBytes n) (([2, 2, 1, 1, 1, 1, 2, 2] : List Nat).take k).sum part :=
  standsAt_flatten (parts := noticeParts n) rfl h

theorem noticeBytes_places (r : Notice) (hlane : r.lane < 65536) (hstore : r.store < 65536)
    (hday : r.stamp.day < 65536) (hminute : r.stamp.minute < 65536) :
    read2 (noticeBytes r) 0 = r.lane ∧ read2 (noticeBytes r) 2 = r.store ∧ read1 (noticeBytes r) 4 = r.slot ∧
    causesOf (read1 (noticeBytes r) 5) = r.causes ∧ read1 (noticeBytes r) 6 = r.state.code ∧
    (read1 (noticeBytes r) 7).testBit 0 = r.locked ∧ (read1 (noticeBytes r) 7).testBit 1 = r.autoCross ∧
    (read1 (noticeBytes r) 7).testBit 2 = r.autoClear ∧ (read1 (noticeBytes r) 7).testBit 3 = r.overdue ∧
    read2 (noticeBytes r) 8 = r.stamp.day ∧ read2 (noticeBytes r) 10 = r.stamp.minute := by
  have hat := @noticeBytes_standsAt r
  have hslot := r.slot.isLt
  have hmarks := (hat (k := 5) rfl).bits (by simp)
  exact ⟨(hat (k := 0) rfl).byte2 hlane, (hat (k := 1) rfl).byte2 hstore, (hat (k := 2) rfl).byte1 (by omega),
    (hat (k := 3) rfl).causes, (hat (k := 4) rfl).byte1 (LaneState.code_lt _), hmarks 0, hmarks 1, hmarks 2, hmarks 3,
    (hat (k := 6) rfl).byte2 hday, (hat (k := 7) rfl).byte2 hminute⟩

end Sys2Proof.Machine
end

section
/-! The proofs of this family: replies and their codes (O8). -/
namespace Sys2Proof.Machine

/-! ### Replies -/

theorem withLength_standsAt_length (code : Nat) (body : List Byte) :
    StandsAt (withLength code body) 1 (byte2 body.length) := standsAt_zero (byte2 body.length) body

theorem replyBytes_head (reply : Reply) : (replyBytes reply).head? ≠ some 0xFF := by
  cases reply with
  | bare code => cases code <;> decide
  | accepted ticket depth => exact fun h => absurd (Option.some.inj h) (by decide)
  | done body => exact fun h => absurd (Option.some.inj h) (by decide)

theorem replyCodes :
    ∀ e ∈ [(ReplyCode.none, 0x02), (.listEmpty, 0x03), (.queueFull, 0x04), (.malformed, 0x10), (.notReady, 0x11),
      (.noLane, 0x12), (.laneExists, 0x13), (.poolFull, 0x14), (.directoryFull, 0x15), (.noPolicy, 0x16),
      (.noCurrentLot, 0x17), (.locked, 0x18), (.supervisorRequired, 0x19), (.inUse, 0x1A), (.lotExists, 0x1B),
      (.lotTableFull, 0x1C), (.noLot, 0x1D), (.lotInUse, 0x1E), (.wrongState, 0x1F), (.clockRunning, 0x20),
      (.sweepBusy, 0x21)],
    replyBytes (.bare e.1) = [(e.2 : Byte), 0, 0] := by
  decide

theorem acceptedBytes_places (ticket depth : Nat) (hticket : ticket < 256) (hdepth : depth < 256) :
    read1 (replyBytes (.accepted ticket depth)) 0 = 1 ∧ read2 (replyBytes (.accepted ticket depth)) 1 = 2 ∧
      read1 (replyBytes (.accepted ticket depth)) 3 = ticket ∧ read1 (replyBytes (.accepted ticket depth)) 4 = depth :=
  ⟨rfl, (withLength_standsAt_length 1 (byte1 ticket ++ byte1 depth)).byte2 (by simp), read1_byte1 hticket,
    read1_byte1 hdepth⟩

theorem doneReply_places (body : DoneBody) (h : (doneBytes body).length < 65536) :
    read1 (replyBytes (.done body)) 0 = 0 ∧ read2 (replyBytes (.done body)) 1 = (doneBytes body).length ∧
      (replyBytes (.done body)).drop 3 = doneBytes body :=
  ⟨rfl, (withLength_standsAt_length 0 (doneBytes body)).byte2 h, rfl⟩

theorem noticeReply_places (r : Notice) (length : Nat) (h : length < 65536) :
    (doneBytes (.notice r length)).take 12 = noticeBytes r ∧ read2 (doneBytes (.notice r length)) 12 = length :=
  ⟨rfl, read2_byte2 h⟩

/-- The bytes of a PROVE reply ahead of its verdict. -/
theorem provedBytes_eq (c : Option LotCase) (trial : Option (LaneState × Nat × Nat)) (v : Verdict) :
    doneBytes (.proved c trial v) = byte1 ((c.map LotCase.code).getD 0) ++
      (byte1 ((trial.map fun t => t.1.code).getD 0xFF) ++ (byte1 ((trial.map fun t => t.2.1).getD 0) ++
        (byte1 ((trial.map fun t => t.2.2).getD 0) ++ verdictBytes v))) := by
  cases c <;> cases trial <;> rfl

theorem provedBytes_places (c : Option LotCase) (trial : Option (LaneState × Nat × Nat)) (v : Verdict) :
    (c = none → read1 (doneBytes (.proved c trial v)) 0 = 0) ∧
    (∀ e ∈ [(LotCase.active, 1), (.pending, 2), (.auto, 3), (.mismatch, 4), (.unknown, 5)],
      c = some e.1 → read1 (doneBytes (.proved c trial v)) 0 = e.2) ∧
    (trial = none → read1 (doneBytes (.proved c trial v)) 1 = 0xFF ∧ read1 (doneBytes (.proved c trial v)) 2 = 0 ∧
      read1 (doneBytes (.proved c trial v)) 3 = 0) ∧
    (∀ st settle clean, trial = some (st, settle, clean) → settle < 256 → clean < 256 →
      read1 (doneBytes (.proved c trial v)) 1 = st.code ∧ read1 (doneBytes (.proved c trial v)) 2 = settle ∧
        read1 (doneBytes (.proved c trial v)) 3 = clean) ∧
    (doneBytes (.proved c trial v)).drop 4 = verdictBytes v := by
  rw [provedBytes_eq]
  refine ⟨?_, ?_, ?_, ?_, rfl⟩
  · rintro rfl
    rfl
  · intro e he hc
    subst hc
    revert e
    simp only [List.forall_mem_cons, List.not_mem_nil, false_imp_iff, implies_true, and_true]
    exact ⟨rfl, rfl, rfl, rfl, rfl⟩
  · rintro rfl
    exact ⟨rfl, rfl, rfl⟩
  · rintro st settle clean rfl hsettle hclean
    exact ⟨read1_byte1 (LaneState.code_lt st), read1_byte1 hsettle, read1_byte1 hclean⟩

theorem policyReply_places (t : ProcessType) (p : Policy) (count : Nat) (adj : Bool) (h : count < 65536) :
    read1 (doneBytes (.policyStored t p count adj)) 0 = t ∧
      ((doneBytes (.policyStored t p count adj)).drop 1).take 129 = policyBytes p ∧
      read2 (doneBytes (.policyStored t p count adj)) 130 = count ∧
      read1 (doneBytes (.policyStored t p count adj)) 132 = adj.toNat ∧
      doneBytes (.policyRead t p count) = (doneBytes (.policyStored t p count adj)).take 132 := by
  have ht := t.isLt
  have heq : doneBytes (.policyStored t p count adj) =
      [byte1 t, policyBytes p, byte2 count, flag adj].flatten := by simp [doneBytes]
  have hat {k : Nat} {part : List Byte} (hk : [byte1 t, policyBytes p, byte2 count, flag adj][k]? = some part) :
      StandsAt (doneBytes (.policyStored t p count adj)) (([1, 129, 2, 1] : List Nat).take k).sum part :=
    heq ▸ standsAt_flatten (by simp) hk
  refine ⟨(hat (k := 0) rfl).byte1 (by omega), ?_, (hat (k := 2) rfl).byte2 h, (hat (k := 3) rfl).flag, ?_⟩
  · simpa using (hat (k := 1) rfl).drop_take
  · rw [show doneBytes (.policyStored t p count adj) = doneBytes (.policyRead t p count) ++ flag adj from rfl,
      List.take_append_of_le_length (by simp [doneBytes]), List.take_of_length_le (by simp [doneBytes])]

/-! ### The sets of Table 11-5 -/

theorem causesOf_bits (n : Nat) :
    [Cause.watch, .drift, .action, .cleared, .overdue, .crossover, .lotRefused].map (causesOf n).has =
      (List.range 7).map n.testBit := rfl

theorem weekdaysOf_bits (n : Nat) : (List.range 7).map (weekdaysOf n).has = (List.range 7).map n.testBit := rfl

/-- Settles O8: every record is its parts put one after the other, and each part reads back from its place. -/
theorem recordsAndRepliesHaveTheirLengths : Obligations.RecordsAndRepliesHaveTheirLengths := by
  unfold Obligations.RecordsAndRepliesHaveTheirLengths
  refine ⟨length_laneBytes, fun _ => rfl, length_policyBytes, ?_, ?_, fun _ => rfl, fun _ _ => rfl, ?_,
    replyBytes_head, replyCodes, acceptedBytes_places, doneReply_places, fun _ _ => rfl,
    fun v remaining h => ⟨read1_byte1 h, rfl⟩, noticeReply_places, provedBytes_places, policyReply_places,
    rfl, rfl, rfl, rfl, rfl, rfl, causesOf_bits, weekdaysOf_bits, rfl, fun _ => rfl, rfl, rfl, fun _ => rfl, rfl, rfl,
    rfl, rfl, fun b => by cases b <;> rfl, policyBytes_places, ?_, laneBytes_places, noticeBytes_places⟩
  · intro v reason hv
    rw [length_verdictBytes, hv]
    rfl
  · intro v o after x entries hv
    rw [length_verdictBytes, hv, length_evaluated_tail, ← Nat.add_assoc]
  · intro body
    rw [replyBytes, withLength, List.length_append]
    rfl
  · intro v hticket hstore hslot hlane
    obtain ⟨hp0, hp1, hp2, hp3, hp4, hp5, hclipped, hkind⟩ := verdictBytes_places v hticket hstore hslot hlane
    refine ⟨hp0, hp1, hp2, hp3, hp4, hp5, hclipped, fun reason hv => by rw [hkind, hv]; rfl, ?_⟩
    intro o after x entries hv hlength
    obtain ⟨ho, hafter, hx, hcount, hentries⟩ := verdictBytes_evaluated_places hv hlength
    refine ⟨by rw [hkind, hv]; rfl, ho, hafter, hx, hcount, ?_⟩
    intro i p r hi hd1 hd2 ht1 ht2 hr1 hr2
    have hplace (j : Nat) : 14 + 8 * i + j = 14 + j + 8 * i := by omega
    have := entry_places (hentries i (p, r) hi) hd1 hd2 ht1 ht2 hr1 hr2
    simpa only [hplace] using this

end Sys2Proof.Machine
end

section
/-! The proofs of this family: the header of a request's frame, and the framer's checks of it (O6, O7). -/
namespace Sys2Proof.Machine

/-! ### The header -/

section
variable {kind : Nat} {fs : List Bool} {body : List Byte}

theorem length_frameOf : (frameOf kind fs body).length = 2 + body.length := by
  rw [frameOf, List.length_append]
  rfl

theorem read1_frameOf_kind (hkind : kind < 256) : read1 (frameOf kind fs body) 0 = kind :=
  read1_byte1 hkind

theorem read1_frameOf_flags (hfs : fs.length ≤ 8) : read1 (frameOf kind fs body) 1 = bitsNat fs :=
  read1_byte1 ((bitsNat_lt fs).trans_le (Nat.pow_le_pow_right (n := 2) (by decide) hfs))

theorem take_two_frameOf : (frameOf kind fs body).take 2 = byte1 kind ++ byte1 (bitsNat fs) := rfl

theorem frameOf_standsAt : StandsAt (frameOf kind fs body) 2 body := standsAt_zero_self body

end

theorem take_two_eq {bytes : List Byte} (h : 2 ≤ bytes.length) :
    bytes.take 2 = byte1 (read1 bytes 0) ++ byte1 (read1 bytes 1) := by
  match bytes, h with
  | a :: b :: rest, _ => simp [byte1, read1]

/-! ### Presence flags and lengths (Table 11-1) -/

theorem lengthOk_name (b : Bool) (n : Nat) :
    lengthOk ⟨.supervision, 3, 3, [nameByNumberBit]⟩ (bitsNat [b]) n = decide (n = 2 + 3) := by
  cases b <;> rfl

theorem lengthOk_createLane (offsets cross clear : Bool) (n : Nat) :
    lengthOk ⟨.supervision, 5, 5, [offsetsBit, autoCrossBit, autoClearBit]⟩
        (bitsNat [false, offsets, false, cross, clear]) n =
      decide (n = 2 + (5 + (24 * offsets.toNat + (cross.toNat + clear.toNat)))) := by
  cases offsets <;> cases cross <;> cases clear <;> rfl

theorem lengthOk_editLane (number offsets mask cross clear : Bool) (n : Nat) :
    lengthOk ⟨.supervision, 3, 3, [nameByNumberBit, offsetsBit, restMaskBit, autoCrossBit, autoClearBit]⟩
        (bitsNat [number, offsets, mask, cross, clear]) n =
      decide (n = 2 + (3 + (24 * offsets.toNat + (mask.toNat + (cross.toNat + clear.toNat))))) := by
  cases number <;> cases offsets <;> cases mask <;> cases cross <;> cases clear <;> rfl

theorem lengthOk_nextLane (start : Bool) (n : Nat) :
    lengthOk ⟨.supervision, 0, 0, [startNumberBit]⟩ (bitsNat [false, false, false, false, false, start]) n =
      decide (n = 2 + 2 * start.toNat) := by
  cases start <;> rfl

theorem length_optionalBytes {α : Type} {send : α → List Byte} {n : Nat} (hsend : ∀ a, (send a).length = n)
    (x : Option α) : (optionalBytes x send).length = n * x.isSome.toNat := by
  cases x <;> simp [optionalBytes, hsend]

@[simp] theorem length_nameBytes (n : LaneName) : (nameBytes n).length = 3 := by cases n <;> rfl

theorem length_offsetBytes (o : Points Int) : (offsetBytes o).length = 24 :=
  length_flatMap_of_const length_signed2 o.toList

theorem length_densityBytes (d : Option Nat) : (densityBytes d).length = 2 := by cases d <;> rfl

/-- The parts of a strip report as sent. -/
def reportParts (r : StripReport) : List (List Byte) :=
  [byte2 r.store, byte1 r.slot, byte3 r.lot, byte2 r.day, r.densities.toList.flatMap densityBytes]

theorem reportBytes_eq (r : StripReport) : reportBytes r = (reportParts r).flatten := by
  simp [reportBytes, reportParts]

theorem reportParts_lengths (r : StripReport) : (reportParts r).map List.length = [2, 1, 3, 2, 24] := by
  simp only [reportParts, List.map_cons, List.map_nil, length_flatMap_of_const length_densityBytes]
  rfl

@[simp] theorem length_reportBytes (r : StripReport) : (reportBytes r).length = 32 := by
  rw [reportBytes_eq, List.length_flatten, reportParts_lengths]
  rfl

theorem reportBytes_standsAt (r : StripReport) {k : Nat} {part : List Byte} (h : (reportParts r)[k]? = some part) :
    StandsAt (reportBytes r) (([2, 1, 3, 2, 24] : List Nat).take k).sum part :=
  reportBytes_eq r ▸ standsAt_flatten (reportParts_lengths r) h

/-- The frame of a request has the kind of a request frame of its port, presence flags its kind uses, and the length
these ask. -/
structure FrameFits (r : Request) (kind : Nat) (fs : List Bool) (body : List Byte) (f : FrameForm) : Prop where
  bytes : requestBytes r = frameOf kind fs body
  kind_lt : kind < 256
  flags : fs.length ≤ 8
  form : frameForm kind = some f
  port : f.port = requestPort r
  length : ∀ n, lengthOk f (bitsNat fs) n = decide (n = 2 + body.length)

theorem exists_frameFits (r : Request) : ∃ kind fs body f, FrameFits r kind fs body f := by
  cases r with
  | createLane c =>
    refine ⟨_, _, _, _, rfl, by decide, by simp, rfl, rfl, fun n => (lengthOk_createLane _ _ _ n).trans ?_⟩
    simp [length_optionalBytes length_offsetBytes, length_optionalBytes length_flag]
    omega
  | editLane name e =>
    refine ⟨_, _, _, _, rfl, by decide, by simp, rfl, rfl, fun n => (lengthOk_editLane _ _ _ _ _ n).trans ?_⟩
    simp [length_optionalBytes length_offsetBytes, length_optionalBytes length_flag,
      length_optionalBytes (fun m : Weekdays => length_byte1 (weekdaysNat m))]
  | nextLane start =>
    refine ⟨_, _, _, _, rfl, by decide, by simp, rfl, rfl, fun n => (lengthOk_nextLane _ n).trans ?_⟩
    rw [length_optionalBytes length_byte2]
  | retireLane name | lookupLane name | lockLane name | unlockLane name | holdLane name | releaseLane name
  | requalifyLane name =>
    refine ⟨_, _, _, _, rfl, by decide, by simp, rfl, rfl, fun n => (lengthOk_name _ n).trans ?_⟩
    rw [length_nameBytes]
  | submit report | prove report =>
    refine ⟨_, _, _, _, rfl, by decide, by simp, rfl, rfl, fun n => ?_⟩
    rw [length_reportBytes]
    rfl
  | setPolicy t b =>
    refine ⟨_, _, _, _, rfl, by decide, by simp, rfl, rfl, fun n => ?_⟩
    rw [List.length_append, length_policyBytes]
    rfl
  | announceLot lot t refs =>
    refine ⟨_, _, _, _, rfl, by decide, by simp, rfl, rfl, fun n => ?_⟩
    rw [List.length_append, length_flatMap_of_const length_byte2]
    rfl
  | collect | retireSite _ | setPolicyUndefine _ | readPolicy _ | readLot _ | readLotFollowing _ | deleteLot _
  | setClock _ _ _ | startClock | stopClock | readClock | setDeadline _ | startPeriodClose | startRollout _
  | startOverdue | cancelSweep | sweepStatus | takeNotice | setAttentionMode _ | status | identify =>
    exact ⟨_, _, _, _, rfl, by decide, by simp, rfl, rfl, fun n => rfl⟩

/-- The framer's checks of a request's own frame: they pass on its port, and there the request is read. -/
theorem parseFrame_requestBytes (p : Port) (r : Request) :
    parseFrame p (requestBytes r) = if requestPort r = p then
      (readRequest (read1 (requestBytes r) 0) (read1 (requestBytes r) 1) (requestBytes r)).filter structureOk
      else none := by
  obtain ⟨kind, fs, body, f, h⟩ := exists_frameFits r
  have hkind : read1 (requestBytes r) 0 = kind := by rw [h.bytes, read1_frameOf_kind h.kind_lt]
  have hflags : read1 (requestBytes r) 1 = bitsNat fs := by rw [h.bytes, read1_frameOf_flags h.flags]
  have hlength : lengthOk f (bitsNat fs) (requestBytes r).length = true := by
    rw [h.bytes, length_frameOf, h.length, decide_eq_true rfl]
  unfold parseFrame
  simp only [hkind, hflags, h.form, h.port, hlength, and_true]

end Sys2Proof.Machine
end

section
/-! The proofs of this family: every well-formed request reads back from its own frame (O6). -/
namespace Sys2Proof.Machine

/-! ### The values that fit -/

theorem fitsUnsigned_iff {bits n : Nat} : fitsUnsigned bits n = true ↔ n < 2 ^ bits := by
  rw [fitsUnsigned, decide_eq_true_iff]

theorem fitsSigned16_iff {d : Int} : fitsSigned16 d = true ↔ -32768 ≤ d ∧ d ≤ 32767 := by
  rw [fitsSigned16, decide_eq_true_iff]

theorem points_all_iff {α : Type} {x : Points α} {f : α → Bool} : x.toList.all f = true ↔ ∀ p, f (x.pick p) = true := by
  constructor
  · intro h p
    exact List.all_eq_true.mp h _ (List.mem_of_getElem? (toList_getElem? x p))
  · intro h
    rw [Points.toList, List.all_map, List.all_eq_true]
    exact fun p _ => h p

/-- Twelve values read in patch order are those whose places are read. -/
theorem patchesOf_eq {α : Type} {f : Nat → α} {x : Patches α} (h : ∀ i a, (Patches.toList x)[i]? = some a → f i = a) :
    patchesOf f = x := by
  obtain ⟨⟨a, b, c, d⟩, ⟨e, g, i, j⟩, ⟨k, l, m, n⟩⟩ := x
  rw [patchesOf, h 0 a rfl, h 1 b rfl, h 2 c rfl, h 3 d rfl, h 4 e rfl, h 5 g rfl, h 6 i rfl, h 7 j rfl, h 8 k rfl,
    h 9 l rfl, h 10 m rfl, h 11 n rfl]

/-! ### The parts of a body -/

theorem densityOf_densityBytes {bs : List Byte} {i : Nat} {d : Option Nat} (h : StandsAt bs i (densityBytes d))
    (hd : d.getD 0 < 4096) : densityOf (read2 bs i) = d := by
  cases d with
  | none =>
    rw [StandsAt.byte2 h (by decide)]
    rfl
  | some v =>
    have hv : v < 4096 := hd
    rw [StandsAt.byte2 h (by omega), densityOf,
      Nat.testBit_eq_false_of_lt (hv.trans (by decide)), if_neg Bool.false_ne_true, Nat.mod_eq_of_lt hv]

theorem readReport_eq {bs : List Byte} {r : StripReport} (h : StandsAt bs 2 (reportBytes r))
    (hw : r.WellFormed = true) : readReport bs = r := by
  simp only [StripReport.WellFormed, Bool.and_eq_true, fitsUnsigned_iff, List.all_eq_true, decide_eq_true_iff] at hw
  obtain ⟨⟨⟨⟨hstore, hslot⟩, hlot⟩, hday⟩, hdensities⟩ := hw
  have hat {k : Nat} {part : List Byte} (hk : (reportParts r)[k]? = some part) := h.trans (reportBytes_standsAt r hk)
  have hread : patchesOf (fun i => densityOf (read2 bs (10 + 2 * i))) = r.densities :=
    patchesOf_eq fun i d hi => densityOf_densityBytes
      ((hat (k := 4) rfl).trans (standsAt_flatMap length_densityBytes hi)) (hdensities d (List.mem_of_getElem? hi))
  exact (StripReport.mk.injEq ..).mpr ⟨(hat (k := 0) rfl).byte2 hstore, (hat (k := 1) rfl).byte1 hslot,
    (hat (k := 2) rfl).byte3 hlot, (hat (k := 3) rfl).byte2 hday, hread⟩

theorem readName_eq {bs : List Byte} {n : LaneName} {flags : Nat} (h : StandsAt bs 2 (nameBytes n))
    (hflag : flags.testBit nameByNumberBit = nameIsNumber n) (hw : n.WellFormed = true) : readName flags bs = n := by
  cases n with
  | bySlot store slot =>
    simp only [LaneName.WellFormed, Bool.and_eq_true, fitsUnsigned_iff] at hw
    have hstoreAt : StandsAt bs 2 (byte2 store) := StandsAt.trans h (standsAt_zero (byte2 store) _)
    have hslotAt : StandsAt bs 4 (byte1 slot) := StandsAt.trans (j := 2) h (standsAt_zero_self (byte1 slot))
    rw [readName, if_neg (by rw [hflag]; exact Bool.false_ne_true), hstoreAt.byte2 hw.1, hslotAt.byte1 hw.2]
  | byNumber n =>
    rw [LaneName.WellFormed, fitsUnsigned_iff] at hw
    have hnumberAt : StandsAt bs 2 (byte2 n) := StandsAt.trans h (standsAt_zero (byte2 n) _)
    rw [readName, if_pos (show flags.testBit nameByNumberBit = true from hflag), hnumberAt.byte2 hw]

theorem readOffsets_eq {bs : List Byte} {i : Nat} {o : Points Int} (h : StandsAt bs i (offsetBytes o))
    (hw : offsetsWellFormed (some o) = true) : readOffsets bs i = o := by
  refine points_ext fun p => ?_
  have := fitsSigned16_iff.mp (points_all_iff.mp hw p)
  rw [readOffsets, pick_ofFn]
  exact (StandsAt.point h length_signed2 p).signed2 (by omega) (by omega)

theorem readChoice_eq {bs : List Byte} {i : Nat} {b : Bool} (h : StandsAt bs i (flag b)) :
    readChoice bs i = some b := by
  rw [readChoice, h.flag]
  cases b <;> rfl

theorem readOptional_eq {α : Type} {x : Option α} {flags bit i : Nat} {read : Nat → Option α}
    (hbit : flags.testBit bit = x.isSome) (h : ∀ a, x = some a → read i = some a) :
    readOptional flags bit i read = some x := by
  cases x with
  | none => rw [readOptional, hbit, Option.isSome_none, if_neg Bool.false_ne_true]
  | some a => rw [readOptional, hbit, Option.isSome_some, if_pos rfl, h a rfl, Option.map_some]

theorem readPolicyBody_eq {bs : List Byte} {p : Policy} (h : StandsAt bs 3 (policyBytes p))
    (hw : p.WellFormed = true) : readPolicyBody bs = p := by
  simp only [Policy.WellFormed, Bool.and_eq_true, fitsUnsigned_iff, points_all_iff, Limits.WellFormed,
    fitsSigned16_iff] at hw
  obtain ⟨⟨⟨⟨⟨⟨⟨hlimits, hthreshold⟩, hshift⟩, hdeadband⟩, hrun⟩, hsettle⟩, hclear⟩, hoverdue⟩ := hw
  have hat {k : Nat} {part : List Byte} (hk : (policyParts p)[k]? = some part) := h.trans (policyBytes_standsAt p hk)
  have hused : Points.ofFn (fun q => (256 * read1 bs 3 + read1 bs 4).testBit (pointIndex q)) = p.used :=
    points_ext fun q => (pick_ofFn _ q).trans ((hat (k := 0) rfl).pointBits q)
  have hlimitsRead : Points.ofFn (fun q => (⟨readSigned2 bs (5 + 8 * pointIndex q),
      readSigned2 bs (5 + 8 * pointIndex q + 2), readSigned2 bs (5 + 8 * pointIndex q + 4),
      readSigned2 bs (5 + 8 * pointIndex q + 6)⟩ : Limits)) = p.limits := by
    refine points_ext fun q => (pick_ofFn _ q).trans ?_
    obtain ⟨⟨⟨h1, h2⟩, h3⟩, h4⟩ := hlimits q
    have hpoint {k : Nat} {part : List Byte} (hk : _ = some part) :=
      ((hat (k := 1) rfl).point length_limitsBytes q).trans (limitsBytes_standsAt (p.limits.pick q) (k := k) hk)
    rw [show readSigned2 bs (5 + 8 * pointIndex q) = _ from (hpoint (k := 0) rfl).signed2 (by omega) (by omega),
      show readSigned2 bs (5 + 8 * pointIndex q + 2) = _ from (hpoint (k := 1) rfl).signed2 (by omega) (by omega),
      show readSigned2 bs (5 + 8 * pointIndex q + 4) = _ from (hpoint (k := 2) rfl).signed2 (by omega) (by omega),
      show readSigned2 bs (5 + 8 * pointIndex q + 6) = _ from (hpoint (k := 3) rfl).signed2 (by omega) (by omega)]
  have hthresholdRead : Points.ofFn (fun q => read2 bs (101 + 2 * pointIndex q)) = p.driftThreshold :=
    points_ext fun q => (pick_ofFn _ q).trans (((hat (k := 2) rfl).point length_byte2 q).byte2 (hthreshold q))
  exact (Policy.mk.injEq ..).mpr ⟨hused, hlimitsRead, hthresholdRead, (hat (k := 3) rfl).byte1 hshift,
    (hat (k := 4) rfl).byte1 hdeadband, (hat (k := 5) rfl).byte1 hrun, (hat (k := 6) rfl).byte1 hsettle,
    (hat (k := 7) rfl).byte1 hclear, (hat (k := 8) rfl).byte1 hoverdue, (hat (k := 9) rfl).causes⟩

/-! ### Optional parts -/

theorem partsBefore_createLane (offsets cross clear : Bool) :
    partsBefore (bitsNat [false, offsets, false, cross, clear]) offsetsBit = 0 ∧
      partsBefore (bitsNat [false, offsets, false, cross, clear]) autoCrossBit = 24 * offsets.toNat ∧
      partsBefore (bitsNat [false, offsets, false, cross, clear]) autoClearBit =
        24 * offsets.toNat + cross.toNat := by
  cases offsets <;> cases cross <;> cases clear <;> decide

theorem partsBefore_editLane (number offsets mask cross clear : Bool) :
    partsBefore (bitsNat [number, offsets, mask, cross, clear]) offsetsBit = 0 ∧
      partsBefore (bitsNat [number, offsets, mask, cross, clear]) restMaskBit = 24 * offsets.toNat ∧
      partsBefore (bitsNat [number, offsets, mask, cross, clear]) autoCrossBit =
        24 * offsets.toNat + mask.toNat ∧
      partsBefore (bitsNat [number, offsets, mask, cross, clear]) autoClearBit =
        24 * offsets.toNat + (mask.toNat + cross.toNat) := by
  cases number <;> cases offsets <;> cases mask <;> cases cross <;> cases clear <;> decide

theorem StandsAt.of_optional {α : Type} {bs : List Byte} {x : Option α} {send : α → List Byte} {i j : Nat}
    (hat : StandsAt bs i (optionalBytes x send)) (hij : i = j) {a : α} (ha : x = some a) : StandsAt bs j (send a) := by
  subst ha hij
  exact hat

theorem offsetsPart_eq {bs : List Byte} {x : Option (Points Int)} {flags i j : Nat}
    (hat : StandsAt bs i (optionalBytes x offsetBytes)) (hij : i = j) (hbit : flags.testBit offsetsBit = x.isSome)
    (hw : offsetsWellFormed x = true) :
    readOptional flags offsetsBit j (fun i => some (readOffsets bs i)) = some x :=
  readOptional_eq hbit fun _ ha => congrArg some (readOffsets_eq (hat.of_optional hij ha) (ha ▸ hw))

theorem restMaskPart_eq {bs : List Byte} {x : Option Weekdays} {flags i j : Nat}
    (hat : StandsAt bs i (optionalBytes x fun m => byte1 (weekdaysNat m))) (hij : i = j)
    (hbit : flags.testBit restMaskBit = x.isSome) :
    readOptional flags restMaskBit j (fun i => some (weekdaysOf (read1 bs i))) = some x :=
  readOptional_eq hbit fun _ ha => congrArg some (hat.of_optional hij ha).weekdays

theorem choicePart_eq {bs : List Byte} {x : Option Bool} {flags i j : Nat} (bit : Nat)
    (hat : StandsAt bs i (optionalBytes x flag)) (hij : i = j) (hbit : flags.testBit bit = x.isSome) :
    readOptional flags bit j (readChoice bs) = some x :=
  readOptional_eq hbit fun _ ha => readChoice_eq (hat.of_optional hij ha)

/-! ### The requests -/

theorem readRequest_createLane_eq (flags : Nat) (bytes : List Byte) : readRequest 0x20 flags bytes =
    (readOptional flags offsetsBit (2 + 5 + partsBefore flags offsetsBit) fun i => some (readOffsets bytes i)).bind
      fun offsets => (readOptional flags autoCrossBit (2 + 5 + partsBefore flags autoCrossBit) (readChoice bytes)).bind
        fun cross => (readOptional flags autoClearBit (2 + 5 + partsBefore flags autoClearBit) (readChoice bytes)).map
          fun clear => .createLane ⟨read2 bytes 2, read1 bytes 4, read1 bytes 5, weekdaysOf (read1 bytes 6), offsets,
            cross, clear⟩ := rfl

theorem readRequest_editLane_eq (flags : Nat) (bytes : List Byte) : readRequest 0x21 flags bytes =
    (readOptional flags offsetsBit (2 + 3 + partsBefore flags offsetsBit) fun i => some (readOffsets bytes i)).bind
      fun offsets => (readOptional flags restMaskBit (2 + 3 + partsBefore flags restMaskBit)
          fun i => some (weekdaysOf (read1 bytes i))).bind
        fun mask =>
          (readOptional flags autoCrossBit (2 + 3 + partsBefore flags autoCrossBit) (readChoice bytes)).bind fun cross =>
            (readOptional flags autoClearBit (2 + 3 + partsBefore flags autoClearBit) (readChoice bytes)).map
              fun clear => .editLane (readName flags bytes) ⟨offsets, mask, cross, clear⟩ := rfl

theorem requestBytes_createLane_standsAt (c : LaneCreation) {k : Nat} {part : List Byte}
    (hk : [byte2 c.store, byte1 c.slot, byte1 c.type, byte1 (weekdaysNat c.restMask),
      optionalBytes c.offsets offsetBytes, optionalBytes c.autoCross flag, optionalBytes c.autoClear flag][k]? =
        some part) :
    StandsAt (requestBytes (.createLane c)) (2 + (([2, 1, 1, 1, 24 * c.offsets.isSome.toNat,
      1 * c.autoCross.isSome.toNat, 1 * c.autoClear.isSome.toNat] : List Nat).take k).sum) part := by
  refine StandsAt.trans (mid := _) ?_ (standsAt_flatten ?_ hk)
  · simpa [requestBytes] using frameOf_standsAt
  · simp only [List.map_cons, List.map_nil, length_optionalBytes length_offsetBytes,
      length_optionalBytes length_flag, length_byte1, length_byte2]

theorem readRequest_createLane (c : LaneCreation) (hw : c.WellFormed = true) :
    readRequest 0x20 (bitsNat [false, c.offsets.isSome, false, c.autoCross.isSome, c.autoClear.isSome])
      (requestBytes (.createLane c)) = some (.createLane c) := by
  simp only [LaneCreation.WellFormed, Bool.and_eq_true, fitsUnsigned_iff] at hw
  obtain ⟨⟨⟨hstore, hslot⟩, htype⟩, hoffsets⟩ := hw
  have hat := @requestBytes_createLane_standsAt c
  have hbit := testBit_bitsNat [false, c.offsets.isSome, false, c.autoCross.isSome, c.autoClear.isSome]
  obtain ⟨hoffsetsPlace, hcrossPlace, hclearPlace⟩ :=
    partsBefore_createLane c.offsets.isSome c.autoCross.isSome c.autoClear.isSome
  rw [readRequest_createLane_eq, offsetsPart_eq (hat (k := 4) rfl) (by rw [hoffsetsPlace]; rfl) (hbit 1) hoffsets,
    choicePart_eq autoCrossBit (hat (k := 5) rfl) (by rw [hcrossPlace]; simp; omega) (hbit 3),
    choicePart_eq autoClearBit (hat (k := 6) rfl) (by rw [hclearPlace]; simp; omega) (hbit 4)]
  simp only [Option.bind_some, Option.map_some]
  exact congrArg (fun c => some (Request.createLane c)) ((LaneCreation.mk.injEq ..).mpr
    ⟨(hat (k := 0) rfl).byte2 hstore, (hat (k := 1) rfl).byte1 hslot, (hat (k := 2) rfl).byte1 htype,
      (hat (k := 3) rfl).weekdays, rfl, rfl, rfl⟩)

theorem requestBytes_editLane_standsAt (n : LaneName) (e : LaneEdit) {k : Nat} {part : List Byte}
    (hk : [nameBytes n, optionalBytes e.offsets offsetBytes, optionalBytes e.restMask (fun m => byte1 (weekdaysNat m)),
      optionalBytes e.autoCross flag, optionalBytes e.autoClear flag][k]? = some part) :
    StandsAt (requestBytes (.editLane n e)) (2 + (([3, 24 * e.offsets.isSome.toNat, 1 * e.restMask.isSome.toNat,
      1 * e.autoCross.isSome.toNat, 1 * e.autoClear.isSome.toNat] : List Nat).take k).sum) part := by
  refine StandsAt.trans (mid := _) ?_ (standsAt_flatten ?_ hk)
  · simpa [requestBytes] using frameOf_standsAt
  · simp only [List.map_cons, List.map_nil, length_optionalBytes length_offsetBytes,
      length_optionalBytes length_flag, length_optionalBytes (fun m : Weekdays => length_byte1 (weekdaysNat m)),
      length_nameBytes]

theorem readRequest_editLane (n : LaneName) (e : LaneEdit) (hn : n.WellFormed = true) (he : e.WellFormed = true) :
    readRequest 0x21 (bitsNat [nameIsNumber n, e.offsets.isSome, e.restMask.isSome, e.autoCross.isSome,
      e.autoClear.isSome]) (requestBytes (.editLane n e)) = some (.editLane n e) := by
  have hat := @requestBytes_editLane_standsAt n e
  have hbit := testBit_bitsNat [nameIsNumber n, e.offsets.isSome, e.restMask.isSome, e.autoCross.isSome,
    e.autoClear.isSome]
  obtain ⟨hoffsetsPlace, hmaskPlace, hcrossPlace, hclearPlace⟩ := partsBefore_editLane (nameIsNumber n)
    e.offsets.isSome e.restMask.isSome e.autoCross.isSome e.autoClear.isSome
  rw [readRequest_editLane_eq, readName_eq (hat (k := 0) rfl) (hbit 0) hn,
    offsetsPart_eq (hat (k := 1) rfl) (by rw [hoffsetsPlace]; rfl) (hbit 1) he,
    restMaskPart_eq (hat (k := 2) rfl) (by rw [hmaskPlace]; simp; omega) (hbit 2),
    choicePart_eq autoCrossBit (hat (k := 3) rfl) (by rw [hcrossPlace]; simp; omega) (hbit 3),
    choicePart_eq autoClearBit (hat (k := 4) rfl) (by rw [hclearPlace]; simp; omega) (hbit 4)]
  rfl

theorem announced_references_eq {bs : List Byte} {i : Nat} {refs : Patches Nat}
    (hat : StandsAt bs i (refs.toList.flatMap byte2)) (hw : (refs.toList.all (fitsUnsigned 16)) = true) :
    patchesOf (fun j => read2 bs (i + 2 * j)) = refs :=
  patchesOf_eq fun _ v hv => (hat.trans (standsAt_flatMap length_byte2 hv)).byte2
    (fitsUnsigned_iff.mp (List.all_eq_true.mp hw v (List.mem_of_getElem? hv)))

/-- A request that only names a lane. -/
theorem readName_nameFrame {kind : Nat} {n : LaneName} (hw : n.WellFormed = true) :
    readName (bitsNat [nameIsNumber n]) (nameFrame kind n) = n :=
  readName_eq frameOf_standsAt (testBit_bitsNat _ 0) hw

theorem readRequest_requestBytes (r : Request) (hw : r.WellFormed = true) :
    readRequest (read1 (requestBytes r) 0) (read1 (requestBytes r) 1) (requestBytes r) = some r := by
  cases r with
  | createLane c =>
    rw [show read1 (requestBytes (.createLane c)) 1 = _ from read1_frameOf_flags (by simp)]
    exact readRequest_createLane c hw
  | editLane n e =>
    rw [Request.WellFormed, Bool.and_eq_true] at hw
    rw [show read1 (requestBytes (.editLane n e)) 1 = _ from read1_frameOf_flags (by simp)]
    exact readRequest_editLane n e hw.1 hw.2
  | retireLane n | lookupLane n | lockLane n | unlockLane n | holdLane n | releaseLane n | requalifyLane n =>
    rw [requestBytes, nameFrame, read1_frameOf_flags (by simp)]
    exact congrArg (fun n => some _) (readName_nameFrame hw)
  | submit report | prove report =>
    exact congrArg (fun r => some _) (readReport_eq frameOf_standsAt hw)
  | setPolicy t b =>
    rw [Request.WellFormed, Bool.and_eq_true, fitsUnsigned_iff] at hw
    have hbody : StandsAt (requestBytes (.setPolicy t b)) 3 (policyBytes b) := standsAt_zero_self (policyBytes b)
    exact (if_neg (show ¬Nat.testBit 0 6 = true by decide)).trans
      (congrArg₂ (fun t b => some (Request.setPolicy t b)) (read1_byte1 hw.1) (readPolicyBody_eq hbody hw.2))
  | announceLot lot t refs =>
    rw [Request.WellFormed, Bool.and_eq_true, Bool.and_eq_true, fitsUnsigned_iff, fitsUnsigned_iff] at hw
    obtain ⟨⟨hlot, ht⟩, hrefs⟩ := hw
    have hbody : StandsAt (requestBytes (.announceLot lot t refs)) 6 (refs.toList.flatMap byte2) :=
      standsAt_zero_self (refs.toList.flatMap byte2)
    exact congrArg some ((Request.announceLot.injEq ..).mpr
      ⟨read3_byte3 hlot, read1_byte1 ht, announced_references_eq hbody hrefs⟩)
  | nextLane start =>
    cases start with
    | none => rfl
    | some start =>
      exact congrArg (fun n => some (Request.nextLane n)) ((if_pos (show Nat.testBit 32 5 = true by decide)).trans
        (congrArg some (read2_byte2 (fitsUnsigned_iff.mp hw))))
  | retireSite store => exact congrArg (fun n => some _) (read2_byte2 (fitsUnsigned_iff.mp hw))
  | setDeadline minute => exact congrArg (fun n => some _) (read2_byte2 (fitsUnsigned_iff.mp hw))
  | readPolicy t | setAttentionMode t => exact congrArg (fun n => some _) (read1_byte1 (fitsUnsigned_iff.mp hw))
  | setPolicyUndefine t =>
    exact (if_pos (show Nat.testBit 64 6 = true by decide)).trans
      (congrArg (fun n => some (Request.setPolicyUndefine n)) (read1_byte1 (fitsUnsigned_iff.mp hw)))
  | readLot lot =>
    exact (if_neg (show ¬Nat.testBit 0 6 = true by decide)).trans
      (congrArg (fun n => some (Request.readLot n)) (read3_byte3 (fitsUnsigned_iff.mp hw)))
  | readLotFollowing start =>
    exact (if_pos (show Nat.testBit 64 6 = true by decide)).trans
      (congrArg (fun n => some (Request.readLotFollowing n)) (read3_byte3 (fitsUnsigned_iff.mp hw)))
  | deleteLot lot | startRollout lot => exact congrArg (fun n => some _) (read3_byte3 (fitsUnsigned_iff.mp hw))
  | setClock d m b =>
    rw [Request.WellFormed, Bool.and_eq_true, Bool.and_eq_true, fitsUnsigned_iff, fitsUnsigned_iff, fitsUnsigned_iff]
      at hw
    obtain ⟨⟨hd, hm⟩, hb⟩ := hw
    exact congrArg some ((Request.setClock.injEq ..).mpr ⟨read2_byte2 hd, read2_byte2 hm, read1_byte1 hb⟩)
  | collect | startClock | stopClock | readClock | startPeriodClose | startOverdue | cancelSweep | sweepStatus
  | takeNotice | status | identify => rfl

/-- Settles O6: the framer's checks pass on the request's port alone, and every part is read where it was put. -/
theorem requestsReadBackFromTheirFrames : Obligations.RequestsReadBackFromTheirFrames := by
  unfold Obligations.RequestsReadBackFromTheirFrames
  intro r hw hs
  refine ⟨?_, fun p hp => by rw [parseFrame_requestBytes, if_neg (Ne.symm hp)]⟩
  rw [parseFrame_requestBytes, if_pos rfl, readRequest_requestBytes r hw, Option.filter_some, if_pos hs]

end Sys2Proof.Machine
end

section
/-! The proofs of this family: a frame that parses carries a well-formed request (O7). -/
namespace Sys2Proof.Machine

/-! ### What is read fits its field -/

theorem readSigned2_fits (bs : List Byte) (i : Nat) : fitsSigned16 (readSigned2 bs i) = true := by
  have := read2_lt bs i
  rw [fitsSigned16_iff, readSigned2]
  split <;> omega

theorem patchesOf_all {α : Type} {f : Nat → α} {ok : α → Bool} (h : ∀ i, ok (f i) = true) :
    ((patchesOf f).toList).all ok = true := by
  rw [List.all_eq_true]
  intro a ha
  simp only [patchesOf, Patches.toList, List.flatMap_cons, List.flatMap_nil, List.mem_append, List.mem_cons,
    List.not_mem_nil, or_false] at ha
  obtain (rfl | rfl | rfl | rfl) | (rfl | rfl | rfl | rfl) | (rfl | rfl | rfl | rfl) := ha <;> exact h _

theorem densityOf_lt (v : Nat) : (densityOf v).getD 0 < 4096 := by
  unfold densityOf
  split
  · decide
  · exact Nat.mod_lt v (by decide)

theorem readReport_wellFormed (bs : List Byte) : (readReport bs).WellFormed = true := by
  simp only [StripReport.WellFormed, readReport, Bool.and_eq_true, fitsUnsigned_iff]
  exact ⟨⟨⟨⟨read2_lt bs 2, read1_lt bs 4⟩, read3_lt bs 5⟩, read2_lt bs 8⟩,
    patchesOf_all fun i => decide_eq_true (densityOf_lt _)⟩

theorem readName_wellFormed (flags : Nat) (bs : List Byte) : (readName flags bs).WellFormed = true := by
  unfold readName
  split
  · rw [LaneName.WellFormed, fitsUnsigned_iff]
    exact read2_lt bs 2
  · rw [LaneName.WellFormed, Bool.and_eq_true, fitsUnsigned_iff, fitsUnsigned_iff]
    exact ⟨read2_lt bs 2, read1_lt bs 4⟩

theorem nameIsNumber_readName (flags : Nat) (bs : List Byte) :
    nameIsNumber (readName flags bs) = flags.testBit nameByNumberBit := by
  unfold readName
  split
  next h => exact h.symm
  next h => exact (Bool.eq_false_of_not_eq_true h).symm

theorem readOffsets_wellFormed (bs : List Byte) (i : Nat) : offsetsWellFormed (some (readOffsets bs i)) = true :=
  points_all_iff.mpr fun p => by rw [readOffsets, pick_ofFn]; exact readSigned2_fits bs _

theorem readPolicyBody_wellFormed (bs : List Byte) : (readPolicyBody bs).WellFormed = true := by
  simp only [Policy.WellFormed, readPolicyBody, Bool.and_eq_true, points_all_iff, pick_ofFn, fitsUnsigned_iff,
    Limits.WellFormed, readSigned2_fits, and_self, implies_true, true_and]
  exact ⟨⟨⟨⟨⟨⟨fun _ => read2_lt bs _, read1_lt bs _⟩, read1_lt bs _⟩, read1_lt bs _⟩, read1_lt bs _⟩, read1_lt bs _⟩,
    read1_lt bs _⟩

/-- An optional part that is read is present exactly when its flag is set, and is what is read there. -/
theorem readOptional_eq_some {α : Type} {flags bit i : Nat} {read : Nat → Option α} {x : Option α}
    (h : readOptional flags bit i read = some x) :
    x.isSome = flags.testBit bit ∧ ∀ a, x = some a → read i = some a := by
  unfold readOptional at h
  split at h
  next hbit =>
    obtain ⟨a, ha, rfl⟩ := Option.map_eq_some_iff.mp h
    exact ⟨hbit.symm, fun b hb => by cases hb; exact ha⟩
  next hbit =>
    cases h
    exact ⟨(Bool.eq_false_of_not_eq_true hbit).symm, fun a ha => absurd ha (by simp)⟩

theorem offsetsPart_wellFormed {bs : List Byte} {flags i : Nat} {x : Option (Points Int)}
    (h : readOptional flags offsetsBit i (fun i => some (readOffsets bs i)) = some x) : offsetsWellFormed x = true := by
  cases x with
  | none => rfl
  | some o =>
    obtain rfl : readOffsets bs i = o := Option.some.inj ((readOptional_eq_some h).2 o rfl)
    exact readOffsets_wellFormed bs i

/-! ### The flags that are set are those the kind uses -/

/-- The flags of a byte that a kind uses, the others as clear. -/
def usedFlags (used : List Nat) (flags : Nat) : List Bool :=
  (List.range 8).map fun b => used.contains b && flags.testBit b

theorem flags_eq_of_lengthOk {f : FrameForm} {flags length : Nat} (hflags : flags < 256)
    (hok : lengthOk f flags length = true) : bitsNat (usedFlags f.flags flags) = flags := by
  rw [lengthOk, Bool.and_eq_true, List.all_eq_true] at hok
  have hused : (List.range 8).map flags.testBit = usedFlags f.flags flags := by
    refine List.map_congr_left fun b hb => ?_
    have := hok.1 b hb
    cases hbit : flags.testBit b with
    | false => rw [Bool.and_false]
    | true => simpa [hbit] using this.symm
  rw [← hused, bitsNat_map_testBit flags 8 hflags]

/-- Clear bits at the end add nothing. -/
theorem bitsNat_append_clear (bs : List Bool) (n : Nat) : bitsNat (bs ++ List.replicate n false) = bitsNat bs := by
  refine Nat.eq_of_testBit_eq fun i => ?_
  simp only [testBit_bitsNat, List.getD_eq_getElem?_getD, List.getElem?_append, List.getElem?_replicate]
  split
  · rfl
  next hi =>
    rw [List.getElem?_eq_none (Nat.le_of_not_lt hi)]
    split <;> rfl

section
variable (flags : Nat)

theorem bitsNat_usedFlags_nil : bitsNat (usedFlags [] flags) = bitsNat [] := by
  rw [show usedFlags [] flags =
      [] ++ List.replicate 8 false from rfl, bitsNat_append_clear]

theorem bitsNat_usedFlags_name :
    bitsNat (usedFlags [nameByNumberBit] flags) = bitsNat [flags.testBit nameByNumberBit] := by
  rw [show usedFlags [nameByNumberBit] flags =
      [flags.testBit nameByNumberBit] ++ List.replicate 7 false from rfl, bitsNat_append_clear]

theorem bitsNat_usedFlags_createLane : bitsNat (usedFlags [offsetsBit, autoCrossBit, autoClearBit] flags) =
    bitsNat [false, flags.testBit offsetsBit, false, flags.testBit autoCrossBit, flags.testBit autoClearBit] := by
  rw [show usedFlags [offsetsBit, autoCrossBit, autoClearBit] flags =
      [false, flags.testBit offsetsBit, false, flags.testBit autoCrossBit, flags.testBit autoClearBit] ++ List.replicate 3 false from rfl, bitsNat_append_clear]

theorem bitsNat_usedFlags_editLane :
    bitsNat (usedFlags [nameByNumberBit, offsetsBit, restMaskBit, autoCrossBit, autoClearBit] flags) =
      bitsNat [flags.testBit nameByNumberBit, flags.testBit offsetsBit, flags.testBit restMaskBit,
        flags.testBit autoCrossBit, flags.testBit autoClearBit] := by
  rw [show usedFlags [nameByNumberBit, offsetsBit, restMaskBit, autoCrossBit, autoClearBit] flags =
      [flags.testBit nameByNumberBit, flags.testBit offsetsBit, flags.testBit restMaskBit, flags.testBit autoCrossBit,
        flags.testBit autoClearBit] ++ List.replicate 3 false from rfl, bitsNat_append_clear]

theorem bitsNat_usedFlags_start : bitsNat (usedFlags [startNumberBit] flags) =
    bitsNat [false, false, false, false, false, flags.testBit startNumberBit] := by
  rw [show usedFlags [startNumberBit] flags =
      [false, false, false, false, false, flags.testBit startNumberBit] ++ List.replicate 2 false from rfl, bitsNat_append_clear]

theorem bitsNat_usedFlags_alternate : bitsNat (usedFlags [alternateBit] flags) =
    bitsNat [false, false, false, false, false, false, flags.testBit alternateBit] := by
  rw [show usedFlags [alternateBit] flags =
      [false, false, false, false, false, false, flags.testBit alternateBit] ++ List.replicate 1 false from rfl, bitsNat_append_clear]

end

/-- A request whose frame has this kind and these presence flags. -/
def HasHeader (r : Request) (kind flags : Nat) : Prop :=
  ∃ fs body, requestBytes r = frameOf kind fs body ∧ fs.length ≤ 8 ∧ bitsNat fs = flags

theorem hasHeader_readName {kind flags : Nat} {bytes : List Byte} {r : Request}
    (hr : requestBytes r = nameFrame kind (readName flags bytes))
    (hused : bitsNat (usedFlags [nameByNumberBit] flags) = flags) : HasHeader r kind flags :=
  ⟨[nameIsNumber (readName flags bytes)], _, hr, by simp, by
    rw [nameIsNumber_readName, ← bitsNat_usedFlags_name, hused]⟩

theorem hasHeader_nil {kind flags : Nat} {r : Request} {body : List Byte} (hr : requestBytes r = frameOf kind [] body)
    (hused : bitsNat (usedFlags [] flags) = flags) : HasHeader r kind flags :=
  ⟨[], body, hr, by simp, (bitsNat_usedFlags_nil flags).symm.trans hused⟩

theorem readRequest_setPolicy_eq (flags : Nat) (bytes : List Byte) : readRequest 0x30 flags bytes =
    if flags.testBit alternateBit then some (.setPolicyUndefine (read1 bytes 2))
    else some (.setPolicy (read1 bytes 2) (readPolicyBody bytes)) := rfl

theorem readRequest_readLot_eq (flags : Nat) (bytes : List Byte) : readRequest 0x39 flags bytes =
    if flags.testBit alternateBit then some (.readLotFollowing (read3 bytes 2)) else some (.readLot (read3 bytes 2)) :=
  rfl

/-- A request in one of two forms, of which the flag for the alternate form tells. -/
theorem hasHeader_alternate {kind flags : Nat} {r r₁ r₂ : Request} {body₁ body₂ : List Byte}
    (h₁ : requestBytes r₁ = frameOf kind [false, false, false, false, false, false, true] body₁)
    (h₂ : requestBytes r₂ = frameOf kind [] body₂)
    (hr : (if flags.testBit alternateBit then some r₁ else some r₂) = some r)
    (hused : bitsNat (usedFlags [alternateBit] flags) = flags) : HasHeader r kind flags := by
  rw [bitsNat_usedFlags_alternate] at hused
  split at hr
  next halternate =>
    cases hr
    exact ⟨_, body₁, h₁, by simp, by rw [← hused, halternate]⟩
  next halternate =>
    cases hr
    exact ⟨[], body₂, h₂, by simp, by rw [← hused, Bool.eq_false_of_not_eq_true halternate]; rfl⟩

/-- The request read from a frame has a frame of the same kind and flags. -/
theorem readRequest_header {kind flags length : Nat} {bytes : List Byte} {f : FrameForm} {r : Request}
    (hflags : flags < 256) (hf : frameForm kind = some f) (hok : lengthOk f flags length = true)
    (hr : readRequest kind flags bytes = some r) : HasHeader r kind flags := by
  have hused := flags_eq_of_lengthOk hflags hok
  unfold frameForm at hf
  split at hf <;> cases hf
  case h_3 =>
    simp only [readRequest_createLane_eq, Option.bind_eq_some_iff, Option.map_eq_some_iff] at hr
    obtain ⟨offsets, ho, cross, hc, clear, hl, rfl⟩ := hr
    refine ⟨_, _, rfl, by simp, ?_⟩
    simp only [(readOptional_eq_some ho).1, (readOptional_eq_some hc).1, (readOptional_eq_some hl).1]
    exact (bitsNat_usedFlags_createLane flags).symm.trans hused
  case h_4 =>
    simp only [readRequest_editLane_eq, Option.bind_eq_some_iff, Option.map_eq_some_iff] at hr
    obtain ⟨offsets, ho, mask, hm, cross, hc, clear, hl, rfl⟩ := hr
    refine ⟨_, _, rfl, by simp, ?_⟩
    simp only [(readOptional_eq_some ho).1, (readOptional_eq_some hm).1, (readOptional_eq_some hc).1,
      (readOptional_eq_some hl).1, nameIsNumber_readName]
    exact (bitsNat_usedFlags_editLane flags).symm.trans hused
  case h_5 | h_6 | h_7 | h_8 | h_9 | h_10 | h_11 =>
    obtain rfl := Option.some.inj hr
    exact hasHeader_readName rfl hused
  case h_13 =>
    obtain rfl := Option.some.inj hr
    refine ⟨_, _, rfl, by simp, Eq.trans ?_ ((bitsNat_usedFlags_start flags).symm.trans hused)⟩
    cases flags.testBit startNumberBit <;> rfl
  case h_14 => exact hasHeader_alternate rfl rfl (readRequest_setPolicy_eq flags bytes ▸ hr) hused
  case h_17 => exact hasHeader_alternate rfl rfl (readRequest_readLot_eq flags bytes ▸ hr) hused
  all_goals
    obtain rfl := Option.some.inj hr
    exact hasHeader_nil rfl hused

/-- What is read from a frame fits the fields it is read from. -/
theorem readRequest_wellFormed {kind flags : Nat} {bytes : List Byte} {f : FrameForm} {r : Request}
    (hf : frameForm kind = some f) (hr : readRequest kind flags bytes = some r) : r.WellFormed = true := by
  have h1 (i : Nat) : fitsUnsigned 8 (read1 bytes i) = true := fitsUnsigned_iff.mpr (read1_lt bytes i)
  have h2 (i : Nat) : fitsUnsigned 16 (read2 bytes i) = true := fitsUnsigned_iff.mpr (read2_lt bytes i)
  have h3 (i : Nat) : fitsUnsigned 24 (read3 bytes i) = true := fitsUnsigned_iff.mpr (read3_lt bytes i)
  unfold frameForm at hf
  split at hf <;> cases hf
  case h_3 =>
    simp only [readRequest_createLane_eq, Option.bind_eq_some_iff, Option.map_eq_some_iff] at hr
    obtain ⟨offsets, ho, cross, -, clear, -, rfl⟩ := hr
    simp only [Request.WellFormed, LaneCreation.WellFormed, h1, h2, offsetsPart_wellFormed ho, Bool.and_true]
  case h_4 =>
    simp only [readRequest_editLane_eq, Option.bind_eq_some_iff, Option.map_eq_some_iff] at hr
    obtain ⟨offsets, ho, mask, -, cross, -, clear, -, rfl⟩ := hr
    rw [Request.WellFormed, readName_wellFormed, Bool.true_and]
    exact offsetsPart_wellFormed ho
  case h_13 =>
    obtain rfl := Option.some.inj hr
    rw [Request.WellFormed]
    split
    · exact h2 2
    · rfl
  case h_14 =>
    rw [readRequest_setPolicy_eq] at hr
    split at hr <;> obtain rfl := Option.some.inj hr
    · exact h1 2
    · simp only [Request.WellFormed, h1, readPolicyBody_wellFormed, Bool.and_true]
  case h_17 =>
    rw [readRequest_readLot_eq] at hr
    split at hr <;> obtain rfl := Option.some.inj hr <;> exact h3 2
  all_goals
    obtain rfl := Option.some.inj hr
    simp only [Request.WellFormed, h1, h2, h3, readName_wellFormed, readReport_wellFormed,
      patchesOf_all fun i => h2 (6 + 2 * i), Bool.and_true]

/-- Settles O7: the parts read fit their fields, and the flags and the length that passed are those of the request. -/
theorem parsedFramesCarryWellFormedRequests : Obligations.ParsedFramesCarryWellFormedRequests := by
  unfold Obligations.ParsedFramesCarryWellFormedRequests
  intro p bytes r h
  obtain ⟨hport, hs⟩ := parseFrame_port h
  obtain ⟨f, hf, -, hok, hr, -⟩ := parseFrame_eq_some h
  obtain ⟨fs, body, hbytes, hfs, hflags⟩ := readRequest_header (read1_lt bytes 1) hf hok hr
  obtain ⟨kind', fs', body', f', hfits⟩ := exists_frameFits r
  have hlength : bytes.length = (requestBytes r).length := by
    have hkind : read1 (requestBytes r) 0 = read1 bytes 0 := by rw [hbytes, read1_frameOf_kind (read1_lt bytes 0)]
    have hflags' : read1 (requestBytes r) 1 = read1 bytes 1 := by rw [hbytes, read1_frameOf_flags hfs, hflags]
    rw [hfits.bytes, read1_frameOf_kind hfits.kind_lt] at hkind
    rw [hfits.bytes, read1_frameOf_flags hfits.flags] at hflags'
    obtain rfl : f = f' := Option.some.inj (hf.symm.trans (hkind ▸ hfits.form))
    rw [← hflags', hfits.length, decide_eq_true_iff] at hok
    rw [hfits.bytes, length_frameOf, hok]
  have htwo : 2 ≤ bytes.length := by
    rw [hlength, hbytes, length_frameOf]
    exact Nat.le_add_right 2 _
  refine ⟨hport, readRequest_wellFormed hf hr, hs, hlength, ?_⟩
  rw [take_two_eq htwo, hbytes, take_two_frameOf, hflags]

end Sys2Proof.Machine
end
